-- ==== Sys2Proof/Word.lean ====
section
/-! DEFINITION. The word, byte and register-number types of the core (spec/00_scope.md R7, R9). -/

namespace Sys2Proof

/-- A word: the 16-bit native operand and instruction size (R7, R13). -/
abbrev Word := BitVec 16

/-- One byte of either memory (R39). -/
abbrev Byte := BitVec 8

/-- A 3-bit register (or constant) number, 0 to 7 (R16, R17). -/
abbrev RegIdx := BitVec 3

end Sys2Proof
end

