-- ==== Sys2Proof/Config.lean ====
section
/-! DEFINITION. The implementation parameters of the core (spec/00_scope.md R7, R8; 92_eei_decisions.md, named
parameters): one structure, an argument of the cycle, and the values the spec decides. The remaining parameter of R8,
`starting_address`, is an argument of the loader (70_reset_and_hazards.md R201). -/

namespace Sys2Proof.Config

/-- What a failure halt takes off R7 (R194). -/
def failureRollback : Word := 2#16

/-- EXEC_FAILURE_POLICY: what the controller does after an execution failure (R164); `proceed` is the spec's value
`continue`. -/
inductive FailurePolicy where
  | proceed
  | halt
  deriving DecidableEq, Repr

/-- MISALIGNED_POLICY: what a word access or a fetch at an odd address does; no other value is defined (R50, R51, D23). -/
inductive MisalignedPolicy where
  | fault
  deriving DecidableEq, Repr

/-- The named parameters (R8). -/
structure Params where
  /-- BQ_CAPACITY: the most entries the bubble queue holds (R187, D7). -/
  bqCapacity : Nat
  /-- NOP_WORD: the word a suppressed fetch leaves in the instruction register (R96, D2). -/
  nopWord : Word
  /-- EXEC_FAILURE_POLICY (R164, D18). -/
  failurePolicy : FailurePolicy
  /-- HALT_ON_ZERO_FETCH: does a fetched word 0x0000 halt the core (R193, D30)? -/
  haltOnZeroFetch : Bool
  /-- MISALIGNED_POLICY (R50, R51, D23). -/
  misalignedPolicy : MisalignedPolicy
  /-- BREAKPOINT_ROLLBACK: the bytes taken off R7 when the breakpoint matches (R192, D27, conflict C2). -/
  breakpointRollback : Word
  deriving DecidableEq, Repr

/-- The values this spec decides (R8). -/
def params : Params where
  bqCapacity := 32
  nopWord := 0x0000#16
  failurePolicy := .proceed
  haltOnZeroFetch := false
  misalignedPolicy := .fault
  breakpointRollback := 4#16

/-- The capacities 92_eei_decisions.md allows: any natural of at least 14, so that one CEX fits an empty queue (D7). -/
abbrev Params.Admissible (p : Params) : Prop := 14 ≤ p.bqCapacity

end Sys2Proof.Config
end

