-- ==== Sys2Proof/Syntax.lean ====
section
/-! DEFINITION. The instructions of the core: one constructor for each mnemonic of spec/opcode_table.json
(spec/00_scope.md R3; operands of 10_state.md R37). -/

namespace Sys2Proof

/-- Word or byte operation: the WB bit, 0 = word (R14). -/
inductive Width where
  | word
  | byte
  deriving DecidableEq, Repr

/-- The source operand of the register family: a general register (RC = 0) or one of the eight constants (RC = 1)
(R20, R83). -/
inductive Operand where
  | reg (i : RegIdx)
  | const (i : RegIdx)
  deriving DecidableEq, Repr

/-- The sixteen condition codes of CEX (R86). -/
inductive Cond where
  | eq | ne | cs | cc | mi | pl | vs | vc | hi | ls | ge | lt | gt | le | tr | fl
  deriving DecidableEq, Repr

/-- The instructions. `offset` is the signed byte offset AFTER assembly (R79 to R81), as in the decoded record of R37. -/
inductive Instr where
  -- link and branches (R69, R70)
  | bl (offset : Word)
  | beq (offset : Word)
  | bne (offset : Word)
  | bc (offset : Word)
  | bnc (offset : Word)
  | bn (offset : Word)
  | bge (offset : Word)
  | blt (offset : Word)
  | bra (offset : Word)
  -- register family (R71)
  | add (wb : Width) (src : Operand) (dst : RegIdx)
  | addc (wb : Width) (src : Operand) (dst : RegIdx)
  | sub (wb : Width) (src : Operand) (dst : RegIdx)
  | subc (wb : Width) (src : Operand) (dst : RegIdx)
  | dadd (wb : Width) (src : Operand) (dst : RegIdx)
  | cmp (wb : Width) (src : Operand) (dst : RegIdx)
  | xor (wb : Width) (src : Operand) (dst : RegIdx)
  | and (wb : Width) (src : Operand) (dst : RegIdx)
  | or (wb : Width) (src : Operand) (dst : RegIdx)
  | bit (wb : Width) (src : Operand) (dst : RegIdx)
  | bic (wb : Width) (src : Operand) (dst : RegIdx)
  | bis (wb : Width) (src : Operand) (dst : RegIdx)
  -- moves and shifts (R72, R73)
  | mov (wb : Width) (src dst : RegIdx)
  | swap (src dst : RegIdx)
  | sra (wb : Width) (dst : RegIdx)
  | rrc (wb : Width) (dst : RegIdx)
  | swpb (dst : RegIdx)
  | sxt (dst : RegIdx)
  -- status and system (R74)
  | setpri (pr : BitVec 3)
  | svc (sa : BitVec 4)
  | setcc (mask : BitVec 5)
  | clrcc (mask : BitVec 5)
  -- conditional execution, loads and stores (R75, R76)
  | cex (cond : Cond) (tcount fcount : BitVec 3)
  | ld (prpo dec inc : Bool) (wb : Width) (src dst : RegIdx)
  | st (prpo dec inc : Bool) (wb : Width) (src dst : RegIdx)
  -- immediate moves (R77)
  | movl (imm8 : Byte) (dst : RegIdx)
  | movlz (imm8 : Byte) (dst : RegIdx)
  | movls (imm8 : Byte) (dst : RegIdx)
  | movh (imm8 : Byte) (dst : RegIdx)
  -- relative loads and stores (R78)
  | ldr (offset : Word) (wb : Width) (src dst : RegIdx)
  | str (offset : Word) (wb : Width) (src dst : RegIdx)
  -- every other word (R93)
  | undefined
  deriving DecidableEq, Repr

/-- The operand fields of a decoded-instruction record (R37); the record's `kind` is the constructor of `Instr`.
`cond` is the 4-bit code of CEX and the 3-bit code, zero-extended, of a branch. -/
structure Fields where
  src : RegIdx := 0
  dst : RegIdx := 0
  rc : Bool := false
  wb : Bool := false
  offset : Word := 0
  cond : BitVec 4 := 0
  tcount : BitVec 3 := 0
  fcount : BitVec 3 := 0
  prpo : Bool := false
  inc : Bool := false
  dec : Bool := false
  mask : BitVec 5 := 0
  imm8 : Byte := 0
  deriving DecidableEq, Repr

end Sys2Proof
end

