-- ==== Sys2Proof/WellFormed.lean ====
section
/-! DEFINITION. Which terms of `Instr` an instruction word can hold: only the assembled offsets can be out of range, every
other operand's type has exactly the values its field has (spec/30_encoding.md R79, R80, R81). -/

namespace Sys2Proof

/-- A branch offset: even, -1024 to +1022 (R79). -/
abbrev BranchOffset.wf (o : Word) : Prop := o.getLsbD 0 = false ∧ -1024 ≤ o.toInt ∧ o.toInt ≤ 1022

/-- A BL offset: even, -8192 to +8190 (R80). -/
abbrev LinkOffset.wf (o : Word) : Prop := o.getLsbD 0 = false ∧ -8192 ≤ o.toInt ∧ o.toInt ≤ 8190

/-- An LDR or STR offset: any byte count from -64 to +63 (R81). -/
abbrev RelOffset.wf (o : Word) : Prop := -64 ≤ o.toInt ∧ o.toInt ≤ 63

/-- Does the instruction fit in a word? -/
def Instr.wellFormed : Instr → Bool
  | .bl o => decide (LinkOffset.wf o)
  | .beq o | .bne o | .bc o | .bnc o | .bn o | .bge o | .blt o | .bra o => decide (BranchOffset.wf o)
  | .ldr o _ _ _ | .str o _ _ _ => decide (RelOffset.wf o)
  | .add _ _ _ | .addc _ _ _ | .sub _ _ _ | .subc _ _ _ | .dadd _ _ _ | .cmp _ _ _ => true
  | .xor _ _ _ | .and _ _ _ | .or _ _ _ | .bit _ _ _ | .bic _ _ _ | .bis _ _ _ => true
  | .mov _ _ _ | .swap _ _ | .sra _ _ | .rrc _ _ | .swpb _ | .sxt _ => true
  | .setpri _ | .svc _ | .setcc _ | .clrcc _ | .cex _ _ _ => true
  | .ld _ _ _ _ _ _ | .st _ _ _ _ _ _ => true
  | .movl _ _ | .movlz _ _ | .movls _ _ | .movh _ _ => true
  | .undefined => true

/-- The instruction fits in a word. -/
abbrev Instr.WellFormed (i : Instr) : Prop := i.wellFormed = true

end Sys2Proof
end

