-- ==== Sys2Proof/Decode.lean ====
section
/-! DEFINITION. The decoder (spec/30_encoding.md R64 to R97), the decoder's flush request (R92), the field view of a decoded
instruction (10_state.md R37), and the encoder written from the same formats (R67). -/

namespace Sys2Proof

/-! ## Bytes and words -/

/-- The 16-bit word of a low and a high byte (R45, R46: the low byte lies at the lower address). -/
def wordOfBytes (lo hi : Byte) : Word := hi ++ lo

/-- Bits 7..0 of a word (R10). -/
def lo8 (v : Word) : Byte := v.extractLsb' 0 8

/-- Bits 15..8 of a word (R10). -/
def hi8 (v : Word) : Byte := v.extractLsb' 8 8

/-! ## Operand fields -/

/-- The WB bit: 0 = word, 1 = byte (R14, decision D1). -/
def Width.ofBit (b : Bool) : Width := if b then .byte else .word

def Width.toBit : Width → Bool
  | .word => false
  | .byte => true

/-- The source operand of F-REG from its RC bit and index (R20, R71). -/
def Operand.ofBits (rc : Bool) (i : RegIdx) : Operand := if rc then .const i else .reg i

def Operand.rc : Operand → Bool
  | .reg _ => false
  | .const _ => true

def Operand.idx : Operand → RegIdx
  | .reg i => i
  | .const i => i

/-- The condition a 4-bit code names (R86). -/
def Cond.ofBits (b : BitVec 4) : Cond :=
  match b.toNat with
  | 0 => .eq | 1 => .ne | 2 => .cs | 3 => .cc | 4 => .mi | 5 => .pl | 6 => .vs | 7 => .vc
  | 8 => .hi | 9 => .ls | 10 => .ge | 11 => .lt | 12 => .gt | 13 => .le | 14 => .tr | _ => .fl

/-- The code of a condition (R86). -/
def Cond.toBits : Cond → BitVec 4
  | .eq => 0 | .ne => 1 | .cs => 2 | .cc => 3 | .mi => 4 | .pl => 5 | .vs => 6 | .vc => 7
  | .hi => 8 | .ls => 9 | .ge => 10 | .lt => 11 | .gt => 12 | .le => 13 | .tr => 14 | .fl => 15

/-! ## The decoder -/

/-- The byte offset of a branch: the 10-bit field doubled, sign-extended from its 11th bit (R79). -/
def branchOffset (w : Word) : Word := (w.extractLsb' 0 10 ++ 0#1).signExtend 16

/-- The byte offset of BL: the 13-bit field doubled, sign-extended from its 14th bit (R80). -/
def linkOffset (w : Word) : Word := (w.extractLsb' 0 13 ++ 0#1).signExtend 16

/-- The byte offset of LDR and STR: the 7-bit field sign-extended, not scaled (R81). -/
def relOffset (w : Word) : Word := (w.extractLsb' 7 7).signExtend 16

/-- The DST field (R67). -/
def dstField (w : Word) : RegIdx := w.extractLsb' 0 3

/-- The SRC field (R67). -/
def srcField (w : Word) : RegIdx := w.extractLsb' 3 3

/-- The WB bit, bit 6 (R67). -/
def wbField (w : Word) : Width := Width.ofBit (w.getLsbD 6)

/-- F-REG's source operand (R71). -/
def operandField (w : Word) : Operand := Operand.ofBits (w.getLsbD 7) (srcField w)

/-- The branch table (R70, R85). -/
def decodeBranch (w : Word) : Instr :=
  match (w.extractLsb' 10 3).toNat with
  | 0 => .beq (branchOffset w)
  | 1 => .bne (branchOffset w)
  | 2 => .bc (branchOffset w)
  | 3 => .bnc (branchOffset w)
  | 4 => .bn (branchOffset w)
  | 5 => .bge (branchOffset w)
  | 6 => .blt (branchOffset w)
  | _ => .bra (branchOffset w)

/-- The shift table; bit 6 of SWPB and SXT is not read (R73, R89, R94). -/
def decodeShift (w : Word) : Instr :=
  match (w.extractLsb' 3 3).toNat with
  | 0 => .sra (wbField w) (dstField w)
  | 1 => .rrc (wbField w) (dstField w)
  | 3 => .swpb (dstField w)
  | 4 => .sxt (dstField w)
  | _ => .undefined

/-- The priority decode of the status and system instructions, highest bit first; bit 5 of CLRCC is not read (R74, R94). -/
def decodeStatus (w : Word) : Instr :=
  if w.getLsbD 6 then .clrcc (w.extractLsb' 0 5)
  else if w.getLsbD 5 then .setcc (w.extractLsb' 0 5)
  else if w.getLsbD 4 then .svc (w.extractLsb' 0 4)
  else if w.getLsbD 3 then .undefined
  else .setpri (w.extractLsb' 0 3)

/-- The memory sub-dispatch: CEX, the reserved code, LD, ST (R75, R76, R91). -/
def decodeMemory (w : Word) : Instr :=
  match (w.extractLsb' 10 2).toNat with
  | 0 => .cex (Cond.ofBits (w.extractLsb' 6 4)) (w.extractLsb' 3 3) (w.extractLsb' 0 3)
  | 1 => .undefined
  | 2 => .ld (w.getLsbD 9) (w.getLsbD 8) (w.getLsbD 7) (wbField w) (srcField w) (dstField w)
  | _ => .st (w.getLsbD 9) (w.getLsbD 8) (w.getLsbD 7) (wbField w) (srcField w) (dstField w)

/-- The register family and what shares its top bits, by bits 12..8 (R71 to R76, R88). Bit 6 of SWAP is not read (R94). -/
def decodeRegister (w : Word) : Instr :=
  match (w.extractLsb' 8 5).toNat with
  | 0 => .add (wbField w) (operandField w) (dstField w)
  | 1 => .addc (wbField w) (operandField w) (dstField w)
  | 2 => .sub (wbField w) (operandField w) (dstField w)
  | 3 => .subc (wbField w) (operandField w) (dstField w)
  | 4 => .dadd (wbField w) (operandField w) (dstField w)
  | 5 => .cmp (wbField w) (operandField w) (dstField w)
  | 6 => .xor (wbField w) (operandField w) (dstField w)
  | 7 => .and (wbField w) (operandField w) (dstField w)
  | 8 => .or (wbField w) (operandField w) (dstField w)
  | 9 => .bit (wbField w) (operandField w) (dstField w)
  | 10 => .bic (wbField w) (operandField w) (dstField w)
  | 11 => .bis (wbField w) (operandField w) (dstField w)
  | 12 => if w.getLsbD 7 then .swap (srcField w) (dstField w) else .mov (wbField w) (srcField w) (dstField w)
  | 13 => if w.getLsbD 7 then decodeStatus w else decodeShift w
  | 14 => .undefined
  | 15 => .undefined
  | _ => decodeMemory w

/-- The move family's table (R77, R90). -/
def decodeMove (w : Word) : Instr :=
  match (w.extractLsb' 11 2).toNat with
  | 0 => .movl (w.extractLsb' 3 8) (dstField w)
  | 1 => .movlz (w.extractLsb' 3 8) (dstField w)
  | 2 => .movls (w.extractLsb' 3 8) (dstField w)
  | _ => .movh (w.extractLsb' 3 8) (dstField w)

/-- The whole decoder: total on all 65536 words (R65, R66, R97). -/
def decodeWord (w : Word) : Instr :=
  match (w.extractLsb' 13 3).toNat with
  | 0 => .bl (linkOffset w)
  | 1 => decodeBranch w
  | 2 => decodeRegister w
  | 3 => decodeMove w
  | _ =>
    if w.getLsbD 14 then .str (relOffset w) (wbField w) (srcField w) (dstField w)
    else .ldr (relOffset w) (wbField w) (srcField w) (dstField w)

/-- Why bytes hold no instruction. Every WORD decodes (R65); only a string of fewer than two bytes does not. -/
inductive DecodeError where
  | truncated
  deriving DecidableEq, Repr

/-- The instruction at the front of a byte string, with the bytes after it: two bytes, low byte first (R46, R64). -/
def decodeBytes : List Byte → Except DecodeError (Instr × List Byte)
  | lo :: hi :: rest => .ok (decodeWord (wordOfBytes lo hi), rest)
  | _ => .error .truncated

/-- A store whose destination field is 7 asks for a pipeline flush when it is decoded; nothing else does (R92). -/
def Instr.requestsFlush : Instr → Bool
  | .st _ _ _ _ _ dst => dst == 7#3
  | .str _ _ _ dst => dst == 7#3
  | _ => false

/-! ## The record view -/

/-- The operand fields of the decoded record, zero where the kind's decode rule sets none (R37, R38, R97). -/
def Instr.fields : Instr → Fields
  | .bl o => { offset := o }
  | .beq o => { offset := o, cond := 0 }
  | .bne o => { offset := o, cond := 1 }
  | .bc o => { offset := o, cond := 2 }
  | .bnc o => { offset := o, cond := 3 }
  | .bn o => { offset := o, cond := 4 }
  | .bge o => { offset := o, cond := 5 }
  | .blt o => { offset := o, cond := 6 }
  | .bra o => { offset := o, cond := 7 }
  | .add w s d | .addc w s d | .sub w s d | .subc w s d | .dadd w s d | .cmp w s d | .xor w s d | .and w s d
  | .or w s d | .bit w s d | .bic w s d | .bis w s d => { src := s.idx, dst := d, rc := s.rc, wb := w.toBit }
  | .mov w s d => { src := s, dst := d, wb := w.toBit }
  | .swap s d => { src := s, dst := d }
  | .sra w d | .rrc w d => { dst := d, wb := w.toBit }
  | .swpb d | .sxt d => { dst := d }
  | .setpri p => { mask := p.setWidth 5 }
  | .svc a => { mask := a.setWidth 5 }
  | .setcc m | .clrcc m => { mask := m }
  | .cex c t f => { cond := c.toBits, tcount := t, fcount := f }
  | .ld p de i w s d | .st p de i w s d => { src := s, dst := d, wb := w.toBit, prpo := p, dec := de, inc := i }
  | .movl b d | .movlz b d | .movls b d | .movh b d => { imm8 := b, dst := d }
  | .ldr o w s d | .str o w s d => { offset := o, src := s, dst := d, wb := w.toBit }
  | .undefined => {}

/-! ## The encoder -/

/-- F-BR: 001, the 3-bit code, the offset in words (R70). -/
def encBranch (c : BitVec 3) (o : Word) : Word := 0b001#3 ++ c ++ o.extractLsb' 1 10

/-- F-REG: the high byte, RC, WB, SRC, DST (R71, R88). -/
def encRegister (op : Byte) (w : Width) (s : Operand) (d : RegIdx) : Word :=
  op ++ BitVec.ofBool s.rc ++ BitVec.ofBool w.toBit ++ s.idx ++ d

/-- F-SH: 0x4D, 0, WB, the shift code, DST (R73). -/
def encShift (w : Bool) (sop d : RegIdx) : Word := 0x4D#8 ++ 0#1 ++ BitVec.ofBool w ++ sop ++ d

/-- F-LS: 010 11, L, PRPO, DEC, INC, WB, SRC, DST (R76). -/
def encIndirect (l prpo dec inc : Bool) (w : Width) (s d : RegIdx) : Word :=
  0b01011#5 ++ BitVec.ofBool l ++ BitVec.ofBool prpo ++ BitVec.ofBool dec ++ BitVec.ofBool inc ++ BitVec.ofBool w.toBit ++ s ++ d

/-- F-MI: 011, the 2-bit selector, the byte, DST (R77). -/
def encMove (m : BitVec 2) (b : Byte) (d : RegIdx) : Word := 0b011#3 ++ m ++ b ++ d

/-- F-RL: 10 or 11, the 7-bit offset, WB, SRC, DST (R78). -/
def encRelative (op : BitVec 2) (o : Word) (w : Width) (s d : RegIdx) : Word :=
  op ++ o.extractLsb' 0 7 ++ BitVec.ofBool w.toBit ++ s ++ d

/-- The word of an instruction (R67). Bits no instruction reads (R94) are written 0, and `undefined` is written as 0x4D10,
the first of its 1608 words (R93). -/
def encode : Instr → Word
  | .bl o => 0b000#3 ++ o.extractLsb' 1 13
  | .beq o => encBranch 0 o
  | .bne o => encBranch 1 o
  | .bc o => encBranch 2 o
  | .bnc o => encBranch 3 o
  | .bn o => encBranch 4 o
  | .bge o => encBranch 5 o
  | .blt o => encBranch 6 o
  | .bra o => encBranch 7 o
  | .add w s d => encRegister 0x40 w s d
  | .addc w s d => encRegister 0x41 w s d
  | .sub w s d => encRegister 0x42 w s d
  | .subc w s d => encRegister 0x43 w s d
  | .dadd w s d => encRegister 0x44 w s d
  | .cmp w s d => encRegister 0x45 w s d
  | .xor w s d => encRegister 0x46 w s d
  | .and w s d => encRegister 0x47 w s d
  | .or w s d => encRegister 0x48 w s d
  | .bit w s d => encRegister 0x49 w s d
  | .bic w s d => encRegister 0x4A w s d
  | .bis w s d => encRegister 0x4B w s d
  | .mov w s d => 0x4C#8 ++ 0#1 ++ BitVec.ofBool w.toBit ++ s ++ d
  | .swap s d => 0x4C#8 ++ 1#1 ++ 0#1 ++ s ++ d
  | .sra w d => encShift w.toBit 0 d
  | .rrc w d => encShift w.toBit 1 d
  | .swpb d => encShift false 3 d
  | .sxt d => encShift false 4 d
  | .setpri p => 0b0100110110000#13 ++ p
  | .svc a => 0x4D9#12 ++ a
  | .setcc m => 0b01001101101#11 ++ m
  | .clrcc m => 0b0100110111#10 ++ 0#1 ++ m
  | .cex c t f => 0b010100#6 ++ c.toBits ++ t ++ f
  | .ld p de i w s d => encIndirect false p de i w s d
  | .st p de i w s d => encIndirect true p de i w s d
  | .movl b d => encMove 0 b d
  | .movlz b d => encMove 1 b d
  | .movls b d => encMove 2 b d
  | .movh b d => encMove 3 b d
  | .ldr o w s d => encRelative 0b10 o w s d
  | .str o w s d => encRelative 0b11 o w s d
  | .undefined => 0x4D10#16

/-! ## The table's view -/

/-- The instruction the decoder reads from `nbits` bits `w` of the table, the bits above them zero: the bytes in the
order the instruction memory holds them (R46), given to the decoder. -/
def decodeTableWord (nbits w : Nat) : Option Instr :=
  let v : Word := BitVec.ofNat 16 (w % 2 ^ nbits)
  match decodeBytes [lo8 v, hi8 v] with
  | .ok (i, _) => some i
  | .error _ => none

end Sys2Proof
end

