-- ==== Sys2Proof/Machine/State.lean ====
section
/-! DEFINITION. The state of the core: every piece of state of spec/10_state.md, its value after power-on reset (R42), and
the reasons the model stops (60_exceptions.md R162, R167). -/

namespace Sys2Proof.Machine

/-- The cycle state (10_state.md R33; 70 R178). -/
inductive CycleState where
  | start
  | wait0
  | wait1
  deriving DecidableEq, Repr

/-- A memory control register: read or write, word or byte (R30, R32). -/
inductive MemCtrl where
  | readWord
  | readByte
  | writeWord
  | writeByte
  deriving DecidableEq, Repr

/-- The model faults of 60_exceptions.md R167, each with the value it records. A cycle that raises one enters the terminal
state (`State.faulted`), and every later step of that state answers the fault (R166; log 2). All are safe: the machine
stops where the source gives no meaning, so nothing can be proved of what comes after. -/
inductive Fault where
  /-- Code 0. Raised by fetch-phase-1 from an odd IMAR (R24, R51, R185). Safe. -/
  | misalignedFetch (imar : Word)
  /-- Code 1. Raised by the commit of a word LD, ST, LDR or STR at an odd address (R50, R140). Safe. -/
  | misalignedData (dmar : Word)
  /-- Code 2. Raised by an insert into a full bubble queue (R187). Safe. -/
  | bqOverflow
  /-- Code 3. Raised by the compute phase of LD or ST with INC and DEC both set (R139). Safe. -/
  | ldStIncAndDec (opcode : Word)
  deriving DecidableEq, Repr

/-- Why a step has no meaning. -/
inductive Refusal where
  /-- An instruction whose arm of `exec` is still rejected by name. No arm is: nothing raises it. Safe. -/
  | notModelled (mnemonic : String)
  deriving DecidableEq, Repr

/-- Why an instruction fails (60_exceptions.md R162): it does nothing and the failure is recorded (R163). -/
inductive FailReason where
  | undefinedWord
  | unimplementedSetpri
  | unimplementedSvc
  | bitIndexOutOfRange
  deriving DecidableEq, Repr

/-- One entry of the failure list (10_state.md R40; 60 R163). Its code is `FailReason.code`. -/
structure FailureRecord where
  reason : FailReason
  addr : Option Word
  opcode : Word
  cycle : Nat
  deriving DecidableEq, Repr

/-- A decoded-instruction record (R37): the raw word, the kind with its operand fields (`Instr`, viewed field by field by
`Instr.fields`), the pending bit and the address tag. -/
structure Decoded where
  opcode : Word
  instr : Instr
  pending : Bool
  addr : Option Word
  deriving DecidableEq, Repr

/-- NOP_REC: the decode of NOP_WORD, with no address tag (R38). -/
def Decoded.nopWith (p : Config.Params) : Decoded :=
  { opcode := p.nopWord, instr := decodeWord p.nopWord, pending := false, addr := none }

/-- NOP_REC for the word the spec decides, the no-op BL 0 (R38, R96). -/
def Decoded.nop : Decoded := Decoded.nopWith Config.params

/-- The status flags (R25). -/
@[ext]
structure Flags where
  c : Bool
  z : Bool
  n : Bool
  v : Bool
  slp : Bool
  deriving DecidableEq, Repr

/-- One byte memory: the bytes that differ from 0x00, by rising address (R39, R42). -/
abbrev Memory := List Host.Cell

/-- The form every memory of a run has: addresses strictly rising and below 65536, no byte 0x00 listed. -/
abbrev Memory.wf (m : Memory) : Prop :=
  m.Pairwise (fun c d => c.1 < d.1) ∧ ∀ c ∈ m, c.2 ≠ 0 ∧ c.1 < 65536

/-- The state of the machine (10_state.md R15 to R40). -/
@[ext]
structure State where
  /-- R0 to R7; R7 is the program counter (R16, R21). -/
  x : Vector Word 8
  /-- C, Z, N, V, SLP (R25). -/
  flags : Flags
  /-- IMAR, the address of the fetch in flight (R30). -/
  imar : Word
  /-- IMBR, the word last read from instruction memory (R30). -/
  imbr : Word
  /-- ICTRL (R30). -/
  ictrl : MemCtrl
  /-- IR, the word the next decode reads (R30). -/
  ir : Word
  /-- IR_tag, the address IR was fetched from; none for a substituted no-op (R31). -/
  irTag : Option Word
  /-- DMAR, the address of the data access (R32). -/
  dmar : Word
  /-- DMBR, the data moved (R32). -/
  dmbr : Word
  /-- DCTRL, what the data access is (R32). -/
  dctrl : MemCtrl
  /-- START, WAIT_0 or WAIT_1 (R33). -/
  cycleState : CycleState
  /-- Cycles are taken only while it is set (R33). -/
  running : Bool
  /-- The model fault the machine stopped with (R33; 60 R166). -/
  faulted : Option Fault
  /-- A failure happened in this cycle (R33; 60 R163). -/
  failedThisCycle : Bool
  /-- This cycle's fetch read the word 0x0000 (R33; 70 R185). -/
  zeroFetchedThisCycle : Bool
  /-- BQ, the bubble queue, oldest first; true means suppress; its size is the list's length (R34). -/
  bq : List Bool
  /-- The flush indicator of a decoded store to R7 (R34). -/
  flushPending : Bool
  /-- The instruction decoded in this slot (R35). -/
  cur : Decoded
  /-- The instruction computed one cycle earlier, whose data access may be pending (R35). -/
  prev : Decoded
  /-- The breakpoint register (R36). -/
  breakpoint : Option Word
  /-- The entry point the loader gives (R36). -/
  startingAddress : Word
  /-- The cycle counter (R36). -/
  clockCycles : Nat
  /-- The failures recorded so far, oldest first (R40). -/
  failures : List FailureRecord
  /-- Instruction memory (R39). -/
  im : Memory
  /-- Data memory (R39). -/
  dm : Memory
  deriving DecidableEq, Repr

/-- The machine right after power-on reset, under given parameters (R42; 70 R197). -/
def State.resetWith (p : Config.Params) : State where
  x := Vector.replicate 8 0
  flags := { c := false, z := false, n := false, v := false, slp := false }
  imar := 0
  imbr := 0
  ictrl := .readWord
  ir := p.nopWord
  irTag := none
  dmar := 0
  dmbr := 0
  dctrl := .readWord
  cycleState := .start
  running := false
  faulted := none
  failedThisCycle := false
  zeroFetchedThisCycle := false
  bq := []
  flushPending := false
  cur := Decoded.nopWith p
  prev := Decoded.nopWith p
  breakpoint := none
  startingAddress := 0
  clockCycles := 0
  failures := []
  im := []
  dm := []

/-- The machine right after power-on reset, under the parameters the spec decides (R8, R42). -/
def State.reset : State := State.resetWith Config.params

end Sys2Proof.Machine
end

