-- ==== Sys2Proof/Machine/Ops.lean ====
section
/-! DEFINITION. The named operations over memory, registers, the bubble queue and the two ways an instruction can go wrong:
recording a failure and raising a model fault (spec/10_state.md, 20_memory.md, 60_exceptions.md, 70_reset_and_hazards.md). -/

namespace Sys2Proof.Machine

/-! ## Memory (20_memory.md) -/

/-- The byte at an address; an address not listed reads 0x00 (R42; log 5). -/
def Memory.read : Memory → Nat → Byte
  | [], _ => 0
  | (k, v) :: m, a => if k = a then v else Memory.read m a

/-- The memory with nothing listed at an address. -/
def Memory.erase (m : Memory) (a : Nat) : Memory := m.filter fun c => c.1 != a

/-- A cell put at its place among rising addresses. -/
def Memory.insert : Memory → Nat → Byte → Memory
  | [], a, v => [(a, v)]
  | (k, u) :: m, a, v => if k < a then (k, u) :: Memory.insert m a v else (a, v) :: (k, u) :: m

/-- The memory after one byte is written; writing 0x00 lists nothing. -/
def Memory.write (m : Memory) (a : Nat) (v : Byte) : Memory :=
  if v = 0 then Memory.erase m a else Memory.insert (Memory.erase m a) a v

/-- MemRead(a, 2), little-endian: the low byte at a, the high byte at a + 1 modulo 2^16 (R45, R46, R52). -/
def Memory.readWord (m : Memory) (a : Word) : Word :=
  wordOfBytes (Memory.read m a.toNat) (Memory.read m (a + 1).toNat)

/-- MemRead(a, 1), in the low half of a word (R48). -/
def Memory.readByte (m : Memory) (a : Word) : Word := wordOfBytes (Memory.read m a.toNat) 0

/-- MemWrite(a, 2, v), little-endian (R45, R52). -/
def Memory.writeWord (m : Memory) (a v : Word) : Memory :=
  Memory.write (Memory.write m a.toNat (lo8 v)) (a + 1).toNat (hi8 v)

/-- MemWrite(a, 1, v): the low byte of v (R48). -/
def Memory.writeByte (m : Memory) (a v : Word) : Memory := Memory.write m a.toNat (lo8 v)

/-! ## Registers (10_state.md) -/

/-- The number of the program counter (R21). -/
def pcIdx : RegIdx := 7

/-- The number of the link register (R16). -/
def lrIdx : RegIdx := 5

/-- x[i] (R16). -/
def State.reg (s : State) (i : RegIdx) : Word := s.x[i.toNat]'i.isLt

/-- x[i] <- v, all 16 bits (R10, R19). -/
def State.setReg (s : State) (i : RegIdx) (v : Word) : State := { s with x := s.x.set i.toNat v i.isLt }

/-- The status flags replaced. -/
def State.setFlags (s : State) (f : Flags) : State := { s with flags := f }

/-! ## Single pieces of the pipeline's state replaced (10_state.md) -/

/-- The bubble queue replaced (R34). -/
def State.setBq (s : State) (q : List Bool) : State := { s with bq := q }

/-- The record `prev` replaced (R35). -/
def State.setPrev (s : State) (d : Decoded) : State := { s with prev := d }

/-- DMBR replaced (R32). -/
def State.setDmbr (s : State) (v : Word) : State := { s with dmbr := v }

/-- Data memory replaced (R39). -/
def State.setDm (s : State) (m : Memory) : State := { s with dm := m }

/-- Another cycle state (R33). -/
def State.enter (s : State) (c : CycleState) : State := { s with cycleState := c }

/-- Cycles are no longer taken (R33). -/
def State.stop (s : State) : State := { s with running := false }

/-! ## Failures and faults (60_exceptions.md) -/

/-- The code of a failure reason (R162). -/
def FailReason.code : FailReason → Nat
  | .undefinedWord => 0
  | .unimplementedSetpri => 1
  | .unimplementedSvc => 2
  | .bitIndexOutOfRange => 3

/-- The code of a fault reason (R167). -/
def Fault.code : Fault → Nat
  | .misalignedFetch _ => 0
  | .misalignedData _ => 1
  | .bqOverflow => 2
  | .ldStIncAndDec _ => 3

/-- fail(reason): the failure of the instruction in `cur` is recorded, and that is all it does (R163). -/
def State.fail (s : State) (r : FailReason) : State :=
  { s with
    failures := s.failures ++ [{ reason := r, addr := s.cur.addr, opcode := s.cur.opcode, cycle := s.clockCycles }]
    failedThisCycle := true }

/-- raise Fault(reason): the terminal state is entered, with what was done before it kept (R166). -/
def State.raise (s : State) (r : Fault) : State := { s with faulted := some r }

/-- What a word access or a fetch at an odd address does under MISALIGNED_POLICY: its one value raises the fault (R8, R50,
R51, D23). -/
def State.misaligned (s : State) (p : Config.Params) (r : Fault) : State :=
  match p.misalignedPolicy with
  | .fault => s.raise r

/-! ## The bubble queue (70_reset_and_hazards.md) -/

/-- Entries inserted at the newest end, one by one, until one finds the queue full (R187). -/
def State.bqInsertAll (s : State) (p : Config.Params) : List Bool → State
  | [] => s
  | b :: bs => if s.bq.length = p.bqCapacity then s.raise .bqOverflow else (s.setBq (s.bq ++ [b])).bqInsertAll p bs

/-- BQ.insert(b) (R187). -/
def State.bqInsert (s : State) (p : Config.Params) (b : Bool) : State := s.bqInsertAll p [b]

/-- BQ.clear() (R189). -/
def State.bqClear (s : State) : State := s.setBq []

/-- BQ.remove(): the oldest flag and the queue without it (R188). The fetch consumes an entry only when there is one; an
empty queue answers `false`, do not suppress (R185, decision D6). -/
def State.bqRemove (s : State) : Bool × State :=
  match s.bq with
  | [] => (false, s)
  | b :: bs => (b, s.setBq bs)

/-- The re-arming of a PC write: the queue is cleared and one flush entry inserted (43 R120; 46 R148). An emptied queue has
room for it under every admissible capacity, so this does the same whatever the parameters. -/
def State.flushQueue (s : State) : State := s.bqClear.bqInsert Config.params true

/-- The taken action of a branch: the target into R7, then the flush (46 R148). -/
def State.take (s : State) (target : Word) : State := (s.setReg pcIdx target).flushQueue

/-! ## Data accesses, first phase (45_load_store.md) -/

/-- The end of the compute phase of a load or store: address and control programmed, the access pending (R137). -/
def State.requestAccess (s : State) (ctrl : MemCtrl) (ea : Word) : State :=
  { s with dmar := ea, dctrl := ctrl, cur := { s.cur with pending := true } }

end Sys2Proof.Machine
end

