-- ==== Sys2Proof/Machine/Operands.lean ====
section
/-! DEFINITION. Operand forms: word and byte width, the constant bank, source operands, register write-back, effective
addresses (spec/10_state.md R15 to R20; 45_load_store.md R138, R143; 46_branch.md R147). -/

namespace Sys2Proof.Machine

/-- The width in bits: 16 or 8 (00_scope.md R14). -/
def bits : Width → Nat
  | .word => 16
  | .byte => 8

/-- v mod 2^w. -/
def trunc : Width → Word → Word
  | .word, v => v
  | .byte, v => v &&& 0x00FF#16

/-- Bit w-1 of v. -/
def signBit (w : Width) (v : Word) : Bool := v.getLsbD (bits w - 1)

/-- K[i], the read-only bank (10_state.md R17). -/
def constant (i : RegIdx) : Word :=
  match i.toNat with
  | 0 => 0x0000#16
  | 1 => 0x0001#16
  | 2 => 0x0002#16
  | 3 => 0x0004#16
  | 4 => 0x0008#16
  | 5 => 0x0010#16
  | 6 => 0x0020#16
  | _ => 0xFFFF#16

/-- operand(rc, i), all 16 bits (R20). -/
def State.operand (s : State) : Operand → Word
  | .reg i => s.reg i
  | .const i => constant i

/-- write_w: a byte write keeps bits 15..8 (R19). -/
def State.writeW (s : State) (w : Width) (i : RegIdx) (v : Word) : State :=
  match w with
  | .word => s.setReg i v
  | .byte => s.setReg i ((s.reg i &&& 0xFF00#16) ||| (v &&& 0x00FF#16))

/-- The access size in bytes: 2 or 1 (45_load_store.md, head). -/
def accessSize : Width → Word
  | .word => 2
  | .byte => 1

/-- What LD and ST add to the base: +n, -n or nothing (R138). INC and DEC both set never comes here (R139). -/
def baseDelta (w : Width) (dec inc : Bool) : Word :=
  if inc then accessSize w else if dec then - accessSize w else 0

/-- The effective address of LD and ST: the updated base when PRPO is 1, the base as it was otherwise (R138). -/
def State.indirectAddress (s : State) (prpo dec inc : Bool) (w : Width) (b : RegIdx) : Word :=
  if prpo then s.reg b + baseDelta w dec inc else s.reg b

/-- The base register updated in the compute phase (R138). -/
def State.updateBase (s : State) (dec inc : Bool) (w : Width) (b : RegIdx) : State :=
  s.setReg b (s.reg b + baseDelta w dec inc)

/-- The effective address of LDR and STR (R143, R144). -/
def State.relativeAddress (s : State) (b : RegIdx) (offset : Word) : Word := s.reg b + offset

/-- The data control of a load (R141, R143). -/
def readCtrl : Width → MemCtrl
  | .word => .readWord
  | .byte => .readByte

/-- The data control of a store (R142, R144). -/
def writeCtrl : Width → MemCtrl
  | .word => .writeWord
  | .byte => .writeByte

/-- The target of a branch: (R7 - 2) + offset (46_branch.md R147). -/
def State.branchTarget (s : State) (offset : Word) : Word := (s.reg pcIdx - 2) + offset

end Sys2Proof.Machine
end

