-- ==== Sys2Proof/Machine/Flags.lean ====
section
/-! DEFINITION. Every computation of the flags: the adder (spec/41_arithmetic.md R100, R101), the decimal adder (R108), the
Z and N of the logic and shift families (42 R110, 43 R121), the status masks (44 R129, R130), the conditions (30 R85, R86). -/

namespace Sys2Proof.Machine

/-- What the ALU answers: a result and four flags (00_scope.md R12). -/
structure AluOut where
  r : Word
  c : Bool
  z : Bool
  n : Bool
  v : Bool
  deriving DecidableEq, Repr

/-- alu_add: the raw sum, its low w bits, and the flags of the addends as presented (R100). -/
def aluAdd (w : Width) (a b : Word) (cin : Bool) : AluOut :=
  let sum := a.toNat + b.toNat + cin.toNat
  let r := BitVec.ofNat 16 (sum % 2 ^ bits w)
  { r := r
    c := decide (sum > 2 ^ bits w - 1)
    z := r == 0
    n := signBit w r
    v := signBit w a == signBit w b && signBit w r != signBit w a }

/-- The source of SUB and CMP, negated within the width (R101). -/
def negWithin (w : Width) (s : Word) : Word := BitVec.ofNat 16 ((2 ^ bits w - s.toNat) % 2 ^ bits w)

/-- The source of SUBC, one's-complemented within the width (R101). -/
def notWithin (w : Width) (s : Word) : Word := BitVec.ofNat 16 ((2 ^ bits w - 1) - s.toNat)

/-- One decimal digit of DADD: the digit left and the carry out (R108). -/
def bcdDigit (x y : Nat) (c : Bool) : Nat × Bool :=
  let d := x + y + c.toNat
  if d > 9 then ((d - 10) % 16, true) else (d, false)

/-- DADD over n digits, lowest first: the sum and the last carry (R108). -/
def bcdAdd : Nat → Nat → Nat → Bool → Nat × Bool
  | 0, _, _, c => (0, c)
  | n + 1, a, s, c =>
    let d := bcdDigit (a % 16) (s % 16) c
    let rest := bcdAdd n (a / 16) (s / 16) d.2
    (d.1 + 16 * rest.1, rest.2)

/-- What DADD answers: N and V are always 0 (R108). -/
def aluDadd (w : Width) (a s : Word) (cin : Bool) : AluOut :=
  let o := bcdAdd (bits w / 4) a.toNat s.toNat cin
  let r := BitVec.ofNat 16 o.1
  { r := r, c := o.2, z := r == 0, n := false, v := false }

/-- C, Z, N, V of the ALU; SLP kept (10_state.md R26). -/
def Flags.ofAlu (f : Flags) (o : AluOut) : Flags := { f with c := o.c, z := o.z, n := o.n, v := o.v }

/-- Z and N of a w-bit result; C, V, SLP kept (42 R110, R114; 43 R121). -/
def Flags.ofResult (f : Flags) (w : Width) (r : Word) : Flags := { f with z := r == 0, n := signBit w r }

/-- SETCC's OR: mask bit 0 C, 1 Z, 2 N, 3 SLP, 4 V (44 R129; 30 R84). -/
def Flags.setMask (f : Flags) (m : BitVec 5) : Flags :=
  { c := f.c || m.getLsbD 0, z := f.z || m.getLsbD 1, n := f.n || m.getLsbD 2, slp := f.slp || m.getLsbD 3,
    v := f.v || m.getLsbD 4 }

/-- CLRCC's AND-out, with the same bits (44 R130; 30 R84). -/
def Flags.clearMask (f : Flags) (m : BitVec 5) : Flags :=
  { c := f.c && !m.getLsbD 0, z := f.z && !m.getLsbD 1, n := f.n && !m.getLsbD 2, slp := f.slp && !m.getLsbD 3,
    v := f.v && !m.getLsbD 4 }

/-- holds(cond): a condition of CEX over the flags (30 R86; 44 R131). -/
def Flags.holds (f : Flags) : Cond → Bool
  | .eq => f.z
  | .ne => !f.z
  | .cs => f.c
  | .cc => !f.c
  | .mi => f.n
  | .pl => !f.n
  | .vs => f.v
  | .vc => !f.v
  | .hi => f.c && !f.z
  | .ls => !f.c || f.z
  | .ge => f.n == f.v
  | .lt => f.n != f.v
  | .gt => !f.z && (f.n == f.v)
  | .le => f.z || (f.n != f.v)
  | .tr => true
  | .fl => false

end Sys2Proof.Machine
end

