-- ==== Sys2Proof/Machine/Arithmetic.lean ====
section
/-! DEFINITION. ADD, ADDC, SUB, SUBC, CMP, DADD: compute phase only (spec/41_arithmetic.md). -/

namespace Sys2Proof.Machine

/-- a = x[dst] mod 2^w (41_arithmetic.md, head). -/
def State.aOperand (s : State) (w : Width) (dst : RegIdx) : Word := trunc w (s.reg dst)

/-- s = operand(rc, src) mod 2^w (41_arithmetic.md, head). -/
def State.sOperand (s : State) (w : Width) (src : Operand) : Word := trunc w (s.operand src)

/-- The result and the four flags written back (R102). -/
def State.aluWrite (s : State) (w : Width) (dst : RegIdx) (o : AluOut) : State :=
  (s.writeW w dst o.r).setFlags (s.flags.ofAlu o)

/-- ADD (R103). -/
def execAdd (w : Width) (src : Operand) (dst : RegIdx) (s : State) : Host.Outcome State Fault Refusal :=
  .next (s.aluWrite w dst (aluAdd w (s.aOperand w dst) (s.sOperand w src) false))

/-- ADDC (R104). -/
def execAddc (w : Width) (src : Operand) (dst : RegIdx) (s : State) : Host.Outcome State Fault Refusal :=
  .next (s.aluWrite w dst (aluAdd w (s.aOperand w dst) (s.sOperand w src) s.flags.c))

/-- SUB (R105). -/
def execSub (w : Width) (src : Operand) (dst : RegIdx) (s : State) : Host.Outcome State Fault Refusal :=
  .next (s.aluWrite w dst (aluAdd w (s.aOperand w dst) (negWithin w (s.sOperand w src)) false))

/-- SUBC (R106). -/
def execSubc (w : Width) (src : Operand) (dst : RegIdx) (s : State) : Host.Outcome State Fault Refusal :=
  .next (s.aluWrite w dst (aluAdd w (s.aOperand w dst) (notWithin w (s.sOperand w src)) s.flags.c))

/-- DADD (R108). -/
def execDadd (w : Width) (src : Operand) (dst : RegIdx) (s : State) : Host.Outcome State Fault Refusal :=
  .next (s.aluWrite w dst (aluDadd w (s.aOperand w dst) (s.sOperand w src) s.flags.c))

/-- CMP: the flags of SUB, no register written (R107). -/
def execCmp (w : Width) (src : Operand) (dst : RegIdx) (s : State) : Host.Outcome State Fault Refusal :=
  .next (s.setFlags (s.flags.ofAlu (aluAdd w (s.aOperand w dst) (negWithin w (s.sOperand w src)) false)))

end Sys2Proof.Machine
end

