-- ==== Sys2Proof/Machine/Branch.lean ====
section
/-! DEFINITION. The eight branches and BL: compute phase only (spec/46_branch.md). -/

namespace Sys2Proof.Machine

/-- A branch: taken when its condition holds, else nothing (R148, R149). -/
def State.branchIf (s : State) (cond : Bool) (offset : Word) : State :=
  if cond then s.take (s.branchTarget offset) else s

/-- BEQ: Z = 1 (R150). -/
def execBeq (offset : Word) (s : State) : Host.Outcome State Fault Refusal :=
  .next (s.branchIf s.flags.z offset)

/-- BNE: Z = 0 (R151). -/
def execBne (offset : Word) (s : State) : Host.Outcome State Fault Refusal :=
  .next (s.branchIf (!s.flags.z) offset)

/-- BC: C = 1 (R152). -/
def execBc (offset : Word) (s : State) : Host.Outcome State Fault Refusal :=
  .next (s.branchIf s.flags.c offset)

/-- BNC: C = 0 (R153). -/
def execBnc (offset : Word) (s : State) : Host.Outcome State Fault Refusal :=
  .next (s.branchIf (!s.flags.c) offset)

/-- BN: N = 1 (R154). -/
def execBn (offset : Word) (s : State) : Host.Outcome State Fault Refusal :=
  .next (s.branchIf s.flags.n offset)

/-- BGE: N = V (R155). -/
def execBge (offset : Word) (s : State) : Host.Outcome State Fault Refusal :=
  .next (s.branchIf (s.flags.n == s.flags.v) offset)

/-- BLT: N ≠ V (R156). -/
def execBlt (offset : Word) (s : State) : Host.Outcome State Fault Refusal :=
  .next (s.branchIf (s.flags.n != s.flags.v) offset)

/-- BRA: always (R157). -/
def execBra (offset : Word) (s : State) : Host.Outcome State Fault Refusal :=
  .next (s.branchIf true offset)

/-- BL: a zero offset does nothing; otherwise the return address into LR, then taken (R158). -/
def execBl (offset : Word) (s : State) : Host.Outcome State Fault Refusal :=
  if offset = 0 then .next s
  else .next ((s.setReg lrIdx (s.reg pcIdx - 2)).take (s.branchTarget offset))

end Sys2Proof.Machine
end

