-- ==== Sys2Proof/Machine/LoadStore.lean ====
section
/-! DEFINITION. The compute phase of LD, ST, LDR, STR, and the commit phase they share (spec/45_load_store.md). The data
register of a load or store is used by the commit, so the compute phase does not read it. -/

namespace Sys2Proof.Machine

/-- The compute phase LD and ST share, on base register b: refused when INC and DEC are both set, before anything changes
(R138, R139). -/
def State.indirectAccess (s : State) (prpo dec inc : Bool) (w : Width) (b : RegIdx) (ctrl : MemCtrl) : State :=
  if inc && dec then s.raise (.ldStIncAndDec s.cur.opcode)
  else (s.updateBase dec inc w b).requestAccess ctrl (s.indirectAddress prpo dec inc w b)

/-- LD, base `src` (R141). -/
def execLd (prpo dec inc : Bool) (w : Width) (src _dst : RegIdx) (s : State) : Host.Outcome State Fault Refusal :=
  .next (s.indirectAccess prpo dec inc w src (readCtrl w))

/-- ST, base `dst` (R142). -/
def execSt (prpo dec inc : Bool) (w : Width) (_src dst : RegIdx) (s : State) : Host.Outcome State Fault Refusal :=
  .next (s.indirectAccess prpo dec inc w dst (writeCtrl w))

/-- LDR, base `src`, which is not changed (R143). -/
def execLdr (offset : Word) (w : Width) (src _dst : RegIdx) (s : State) : Host.Outcome State Fault Refusal :=
  .next (s.requestAccess (readCtrl w) (s.relativeAddress src offset))

/-- STR, base `dst`, which is not changed (R144). -/
def execStr (offset : Word) (w : Width) (_src dst : RegIdx) (s : State) : Host.Outcome State Fault Refusal :=
  .next (s.requestAccess (writeCtrl w) (s.relativeAddress dst offset))

/-- Does the control register ask for a word? -/
def MemCtrl.isWord : MemCtrl → Bool
  | .readWord => true
  | .writeWord => true
  | .readByte => false
  | .writeByte => false

/-- The transfer itself, by DCTRL; the data register of a store is read here (R140). -/
def State.transfer (s : State) : State :=
  match s.dctrl with
  | .readWord =>
    let d := Memory.readWord s.dm s.dmar
    (s.setDmbr d).setReg s.prev.instr.fields.dst d
  | .readByte =>
    let d := Memory.readByte s.dm s.dmar
    (s.setDmbr d).writeW .byte s.prev.instr.fields.dst d
  | .writeWord =>
    let d := s.reg s.prev.instr.fields.src
    (s.setDmbr d).setDm (Memory.writeWord s.dm s.dmar d)
  | .writeByte =>
    let d := s.reg s.prev.instr.fields.src
    (s.setDmbr d).setDm (Memory.writeByte s.dm s.dmar d)

/-- commit(prev): nothing unless an access is pending; a word access at an odd address is handled by
MISALIGNED_POLICY before anything moves; the access happens at most once (R140, R50). -/
def State.commit (s : State) (p : Config.Params) : State :=
  if s.prev.pending then
    if s.dctrl.isWord && s.dmar.getLsbD 0 then s.misaligned p (.misalignedData s.dmar)
    else
      let t := s.transfer
      t.setPrev { t.prev with pending := false }
  else s

end Sys2Proof.Machine
end

