-- ==== Sys2Proof/Machine/Logic.lean ====
section
/-! DEFINITION. XOR, AND, OR and the bit-index instructions BIT, BIC, BIS: compute phase only (spec/42_logic_bit.md). -/

namespace Sys2Proof.Machine

/-- A w-bit result written back with Z and N (R110). -/
def State.logicWrite (s : State) (w : Width) (dst : RegIdx) (r : Word) : State :=
  (s.writeW w dst r).setFlags (s.flags.ofResult w r)

/-- XOR (R111). -/
def execXor (w : Width) (src : Operand) (dst : RegIdx) (s : State) : Host.Outcome State Fault Refusal :=
  .next (s.logicWrite w dst (s.aOperand w dst ^^^ s.sOperand w src))

/-- AND (R112). -/
def execAnd (w : Width) (src : Operand) (dst : RegIdx) (s : State) : Host.Outcome State Fault Refusal :=
  .next (s.logicWrite w dst (s.aOperand w dst &&& s.sOperand w src))

/-- OR (R113). -/
def execOr (w : Width) (src : Operand) (dst : RegIdx) (s : State) : Host.Outcome State Fault Refusal :=
  .next (s.logicWrite w dst (s.aOperand w dst ||| s.sOperand w src))

/-- The mask of a bit index: 2^s for the FULL 16-bit source, none when s ≥ w (R114). -/
def State.bitMask (s : State) (w : Width) (src : Operand) : Option Word :=
  if (s.operand src).toNat ≥ bits w then none else some (BitVec.twoPow 16 (s.operand src).toNat)

/-- BIT (R115). -/
def execBit (w : Width) (src : Operand) (dst : RegIdx) (s : State) : Host.Outcome State Fault Refusal :=
  match s.bitMask w src with
  | none => .next (s.fail .bitIndexOutOfRange)
  | some m => .next (s.setFlags (s.flags.ofResult w (s.aOperand w dst &&& m)))

/-- BIC (R116). -/
def execBic (w : Width) (src : Operand) (dst : RegIdx) (s : State) : Host.Outcome State Fault Refusal :=
  match s.bitMask w src with
  | none => .next (s.fail .bitIndexOutOfRange)
  | some m => .next (s.logicWrite w dst (s.aOperand w dst &&& ~~~m))

/-- BIS (R117). -/
def execBis (w : Width) (src : Operand) (dst : RegIdx) (s : State) : Host.Outcome State Fault Refusal :=
  match s.bitMask w src with
  | none => .next (s.fail .bitIndexOutOfRange)
  | some m => .next (s.logicWrite w dst (s.aOperand w dst ||| m))

end Sys2Proof.Machine
end

