-- ==== Sys2Proof/Machine/Moves.lean ====
section
/-! DEFINITION. MOV, SWAP, SRA, RRC, SWPB, SXT, MOVL, MOVLZ, MOVLS, MOVH: compute phase only (spec/43_move_shift.md). -/

namespace Sys2Proof.Machine

/-- MOV; a write of R7 in either width flushes (R118, R120). -/
def execMov (w : Width) (src dst : RegIdx) (s : State) : Host.Outcome State Fault Refusal :=
  let s1 := s.writeW w dst (s.reg src)
  .next (if dst = pcIdx then s1.flushQueue else s1)

/-- SWAP, full words; it flushes when either register is R7 (R119, R120). -/
def execSwap (src dst : RegIdx) (s : State) : Host.Outcome State Fault Refusal :=
  let s1 := (s.setReg src (s.reg dst)).setReg dst (s.reg src)
  .next (if src = pcIdx ∨ dst = pcIdx then s1.flushQueue else s1)

/-- One bit to the right within the width, with the bit that enters at the top (R121, R122). -/
def shiftRight1 (w : Width) (a : Word) (top : Bool) : Word :=
  (a >>> 1) + (if top then BitVec.twoPow 16 (bits w - 1) else 0)

/-- SRA: the sign bit stays; C and V are kept (R121). -/
def execSra (w : Width) (dst : RegIdx) (s : State) : Host.Outcome State Fault Refusal :=
  let a := s.aOperand w dst
  .next (s.logicWrite w dst (shiftRight1 w a (signBit w a)))

/-- RRC: the old C enters at the top, the old low bit becomes C; V is kept (R122). -/
def execRrc (w : Width) (dst : RegIdx) (s : State) : Host.Outcome State Fault Refusal :=
  let a := s.aOperand w dst
  let r := shiftRight1 w a s.flags.c
  .next ((s.writeW w dst r).setFlags { s.flags.ofResult w r with c := a.getLsbD 0 })

/-- SWPB: the two bytes exchanged, no flag written (R123). -/
def execSwpb (dst : RegIdx) (s : State) : Host.Outcome State Fault Refusal :=
  .next (s.setReg dst (wordOfBytes (hi8 (s.reg dst)) (lo8 (s.reg dst))))

/-- SXT: the low byte sign-extended, Z and N of the 16-bit result (R124). -/
def execSxt (dst : RegIdx) (s : State) : Host.Outcome State Fault Refusal :=
  .next (s.logicWrite .word dst ((lo8 (s.reg dst)).signExtend 16))

/-- MOVL: the low byte, the high byte kept (R125). -/
def execMovl (imm8 : Byte) (dst : RegIdx) (s : State) : Host.Outcome State Fault Refusal :=
  .next (s.setReg dst (wordOfBytes imm8 (hi8 (s.reg dst))))

/-- MOVLZ: the low byte, the high byte 0x00 (R126). -/
def execMovlz (imm8 : Byte) (dst : RegIdx) (s : State) : Host.Outcome State Fault Refusal :=
  .next (s.setReg dst (wordOfBytes imm8 0x00))

/-- MOVLS: the low byte, the high byte 0xFF (R127). -/
def execMovls (imm8 : Byte) (dst : RegIdx) (s : State) : Host.Outcome State Fault Refusal :=
  .next (s.setReg dst (wordOfBytes imm8 0xFF))

/-- MOVH: the high byte, the low byte kept (R128). -/
def execMovh (imm8 : Byte) (dst : RegIdx) (s : State) : Host.Outcome State Fault Refusal :=
  .next (s.setReg dst (wordOfBytes (lo8 (s.reg dst)) imm8))

end Sys2Proof.Machine
end

