-- ==== Sys2Proof/Machine/Status.lean ====
section
/-! DEFINITION. SETCC, CLRCC, CEX, and the instructions that only fail: SETPRI, SVC, Undefined (spec/44_status_cex.md). -/

namespace Sys2Proof.Machine

/-- SETCC (R129). -/
def execSetcc (mask : BitVec 5) (s : State) : Host.Outcome State Fault Refusal :=
  .next (s.setFlags (s.flags.setMask mask))

/-- CLRCC (R130). -/
def execClrcc (mask : BitVec 5) (s : State) : Host.Outcome State Fault Refusal :=
  .next (s.setFlags (s.flags.clearMask mask))

/-- The decisions CEX pushes: tcount of one kind, then fcount of the other; `false` (do not suppress) first when the
condition holds (R132). -/
def cexEntries (holds : Bool) (tcount fcount : BitVec 3) : List Bool :=
  List.replicate tcount.toNat (!holds) ++ List.replicate fcount.toNat holds

/-- CEX under given parameters: its entries follow any already queued, within BQ_CAPACITY (R132; 70 R187). -/
def execCexWith (p : Config.Params) (cond : Cond) (tcount fcount : BitVec 3) (s : State) :
    Host.Outcome State Fault Refusal :=
  .next (s.bqInsertAll p (cexEntries (s.flags.holds cond) tcount fcount))

/-- CEX (R132). -/
def execCex (cond : Cond) (tcount fcount : BitVec 3) (s : State) : Host.Outcome State Fault Refusal :=
  execCexWith Config.params cond tcount fcount s

/-- SETPRI: it fails, and its priority is read by nothing (R134). -/
def execSetpri (_pr : BitVec 3) (s : State) : Host.Outcome State Fault Refusal :=
  .next (s.fail .unimplementedSetpri)

/-- SVC: it fails, and its service address is read by nothing (R135; 60 R170). -/
def execSvc (_sa : BitVec 4) (s : State) : Host.Outcome State Fault Refusal :=
  .next (s.fail .unimplementedSvc)

/-- An Undefined word: it fails (R136). -/
def execUndefined (s : State) : Host.Outcome State Fault Refusal :=
  .next (s.fail .undefinedWord)

end Sys2Proof.Machine
end

