-- ==== Sys2Proof/Machine/Dispatch.lean ====
section
/-! DEFINITION. The compute phase of every instruction: one arm a constructor, one meaning an arm. -/

namespace Sys2Proof.Machine

def exec (i : Instr) (s : State) : Host.Outcome State Fault Refusal :=
  match i with
  | .bl offset => Sys2Proof.Machine.execBl offset s
  | .beq offset => Sys2Proof.Machine.execBeq offset s
  | .bne offset => Sys2Proof.Machine.execBne offset s
  | .bc offset => Sys2Proof.Machine.execBc offset s
  | .bnc offset => Sys2Proof.Machine.execBnc offset s
  | .bn offset => Sys2Proof.Machine.execBn offset s
  | .bge offset => Sys2Proof.Machine.execBge offset s
  | .blt offset => Sys2Proof.Machine.execBlt offset s
  | .bra offset => Sys2Proof.Machine.execBra offset s
  | .add wb src dst => Sys2Proof.Machine.execAdd wb src dst s
  | .addc wb src dst => Sys2Proof.Machine.execAddc wb src dst s
  | .sub wb src dst => Sys2Proof.Machine.execSub wb src dst s
  | .subc wb src dst => Sys2Proof.Machine.execSubc wb src dst s
  | .dadd wb src dst => Sys2Proof.Machine.execDadd wb src dst s
  | .cmp wb src dst => Sys2Proof.Machine.execCmp wb src dst s
  | .xor wb src dst => Sys2Proof.Machine.execXor wb src dst s
  | .and wb src dst => Sys2Proof.Machine.execAnd wb src dst s
  | .or wb src dst => Sys2Proof.Machine.execOr wb src dst s
  | .bit wb src dst => Sys2Proof.Machine.execBit wb src dst s
  | .bic wb src dst => Sys2Proof.Machine.execBic wb src dst s
  | .bis wb src dst => Sys2Proof.Machine.execBis wb src dst s
  | .mov wb src dst => Sys2Proof.Machine.execMov wb src dst s
  | .swap src dst => Sys2Proof.Machine.execSwap src dst s
  | .sra wb dst => Sys2Proof.Machine.execSra wb dst s
  | .rrc wb dst => Sys2Proof.Machine.execRrc wb dst s
  | .swpb dst => Sys2Proof.Machine.execSwpb dst s
  | .sxt dst => Sys2Proof.Machine.execSxt dst s
  | .setpri pr => Sys2Proof.Machine.execSetpri pr s
  | .svc sa => Sys2Proof.Machine.execSvc sa s
  | .setcc mask => Sys2Proof.Machine.execSetcc mask s
  | .clrcc mask => Sys2Proof.Machine.execClrcc mask s
  | .cex cond tcount fcount => Sys2Proof.Machine.execCex cond tcount fcount s
  | .ld prpo dec inc wb src dst => Sys2Proof.Machine.execLd prpo dec inc wb src dst s
  | .st prpo dec inc wb src dst => Sys2Proof.Machine.execSt prpo dec inc wb src dst s
  | .movl imm8 dst => Sys2Proof.Machine.execMovl imm8 dst s
  | .movlz imm8 dst => Sys2Proof.Machine.execMovlz imm8 dst s
  | .movls imm8 dst => Sys2Proof.Machine.execMovls imm8 dst s
  | .movh imm8 dst => Sys2Proof.Machine.execMovh imm8 dst s
  | .ldr offset wb src dst => Sys2Proof.Machine.execLdr offset wb src dst s
  | .str offset wb src dst => Sys2Proof.Machine.execStr offset wb src dst s
  | .undefined => Sys2Proof.Machine.execUndefined s

end Sys2Proof.Machine
end

