-- ==== Sys2Proof/Machine/Cycle.lean ====
section
/-! DEFINITION. The pipeline controller: the two cycles, the fetch unit, the decode stage, the halt checks, one step
(spec/70_reset_and_hazards.md R178 to R196), and the placing of an instruction where the next step runs it. -/

namespace Sys2Proof.Machine

/-- IMAR loaded for the next fetch, ICTRL set to READ_WORD (R184). -/
def State.latchFetch (s : State) (a : Word) : State := { s with imar := a, ictrl := .readWord }

/-- Fetch-phase-0: R7 latched into IMAR, then advanced by 2 modulo 2^16 (R184; 10 R23). -/
def State.fetch0 (s : State) : State :=
  (s.latchFetch (s.reg pcIdx)).setReg pcIdx (s.reg pcIdx + 2)

/-- The decode stage: IR into a fresh record, with the decoder's flush request (R186; 30 R92, R97). -/
def State.decodeStage (s : State) : State :=
  let i := decodeWord s.ir
  { s with
    cur := { opcode := s.ir, instr := i, pending := false, addr := s.irTag }
    flushPending := s.flushPending || i.requestsFlush }

/-- Is the word now fetched replaced by a no-op: the flush indicator, or the oldest entry of the queue (R185)? -/
def State.suppresses (s : State) : Bool := s.flushPending || s.bqRemove.1

/-- A fetched word recorded, and the word or, when suppressed, an untagged no-op put into IR (R185). -/
def State.deliver (s : State) (p : Config.Params) (w : Word) (suppress : Bool) : State :=
  { s with
    imbr := w
    zeroFetchedThisCycle := w == 0
    flushPending := false
    ir := if suppress then p.nopWord else w
    irTag := if suppress then none else some s.imar }

/-- Fetch-phase-1: the word at IMAR read, one queue entry consumed, the word or a no-op into IR (R185). -/
def State.fetch1 (s : State) (p : Config.Params) : State :=
  if s.imar.getLsbD 0 then s.misaligned p (.misalignedFetch s.imar)
  else s.bqRemove.2.deliver p (Memory.readWord s.im s.imar) s.suppresses

/-- The breakpoint match: the address tag of the instruction that just completed, low bit of the breakpoint masked (R192). -/
def State.breakpointHit (s : State) : Bool :=
  match s.breakpoint, s.prev.addr with
  | some b, some a => a == b &&& 0xFFFE#16
  | _, _ => false

/-- A halt with R7 rolled back (R194). -/
def State.haltBack (s : State) (rollback : Word) : State :=
  (s.setReg pcIdx (s.reg pcIdx - rollback)).stop

/-- The halt check: breakpoint, then failure halt, then zero-fetch halt (R194). -/
def State.haltCheck (p : Config.Params) (s : State) : State :=
  if s.breakpointHit then s.haltBack p.breakpointRollback
  else if p.failurePolicy = .halt ∧ s.failedThisCycle = true then s.haltBack Config.failureRollback
  else if p.haltOnZeroFetch && s.zeroFetchedThisCycle then s.stop
  else s

/-- START: IR preset to the no-op; it takes no cycle of its own (R179). -/
def State.startStage (s : State) (p : Config.Params) : State :=
  { s with ir := p.nopWord, irTag := none, cycleState := .wait1 }

/-- WAIT_1: fetch-phase-0, decode, commit of the previous instruction; a fault ends the cycle there (R180; 60 R166). -/
def State.wait1 (s : State) (p : Config.Params) : State :=
  let t := s.fetch0.decodeStage.commit p
  if t.faulted.isSome then t else t.enter .wait0

/-- WAIT_0 after the compute phase: `cur` saved as `prev`, fetch-phase-1, halt check; a fault ends the cycle there (R181). -/
def State.finishWait0 (p : Config.Params) (s : State) : State :=
  if s.faulted.isSome then s
  else
    let t := (s.setPrev s.cur).fetch1 p
    if t.faulted.isSome then t else (t.haltCheck p).enter .wait1

/-- The compute phase of an instruction under given parameters. CEX is the one instruction that reads a parameter, the
queue's capacity (R8, R187); under the parameters the spec decides this is `exec`. -/
def execWith (p : Config.Params) (i : Instr) (s : State) : Host.Outcome State Fault Refusal :=
  match i with
  | .cex cond tcount fcount => execCexWith p cond tcount fcount s
  | i => exec i s

/-- WAIT_0: the compute phase of the instruction in `cur`, then the rest of the cycle (R181). -/
def State.wait0 (p : Config.Params) (s : State) : Host.Outcome State Fault Refusal :=
  match execWith p s.cur.instr s with
  | .next t => .next (t.finishWait0 p)
  | .fault r => .fault r
  | .refused r => .refused r

/-- What every cycle does first: the clock counts, the per-cycle bits are cleared (R178; 10 R33). -/
def State.tick (s : State) : State :=
  { s with clockCycles := s.clockCycles + 1, failedThisCycle := false, zeroFetchedThisCycle := false }

/-- One clock cycle (R178). -/
def State.cycle (p : Config.Params) (s : State) : Host.Outcome State Fault Refusal :=
  match s.cycleState with
  | .start => .next ((s.tick.startStage p).wait1 p)
  | .wait1 => .next (s.tick.wait1 p)
  | .wait0 => s.tick.wait0 p

/-- One step under the parameters p: a faulted machine answers its fault and a machine that is not running stays as it
is, since no cycle is taken in either (R178; 60 R166; log 1, log 2); otherwise a cycle. -/
def State.stepWith (p : Config.Params) (s : State) : Host.Outcome State Fault Refusal :=
  match s.faulted with
  | some r => .fault r
  | none => if s.running then s.cycle p else .next s

/-- The word w placed in instruction memory where the next fetch is, and brought to its compute phase as the fetch and
decode stages bring it there (R183), so that the next step runs it (log 3). -/
def State.placeWord (s : State) (w : Word) : State :=
  let a := s.reg pcIdx
  let t := { s with im := Memory.writeWord s.im a w, imar := a, ir := w, irTag := some a }.setReg pcIdx (a + 2)
  { t.fetch0.decodeStage with cycleState := .wait0, running := true, faulted := none }

end Sys2Proof.Machine
end

