-- ==== Sys2Proof/Machine/Step.lean ====
section
/-! DEFINITION. The step of the machine: one clock cycle under the parameters the spec decides (spec/00_scope.md R8;
70_reset_and_hazards.md R178), and the placing of an instruction for the next step. -/

namespace Sys2Proof.Machine

/-- One step (R178). -/
def step (s : State) : Host.Outcome State Fault Refusal := s.stepWith Config.params

/-- The instruction of `nbits` bits `w`, the bits above them zero, where the next step fetches and runs it (log 3). -/
def State.withFetchWord (s : State) (nbits w : Nat) : State := s.placeWord (BitVec.ofNat 16 (w % 2 ^ nbits))

end Sys2Proof.Machine
end

