-- ==== Sys2Proof/Machine/HostOps.lean ====
section
/-! DEFINITION. What the host may do between runs (spec/70_reset_and_hazards.md R191, R197 to R203): functions beside the
step, since the core takes no input during a run (60_exceptions.md R172; log 10). -/

namespace Sys2Proof.Machine

/-- The host operations that change state (R200). -/
inductive HostOp where
  /-- The loader's output: the bytes of each image it writes, and the entry point (R201). -/
  | load (imBytes dmBytes : List (Word × Byte)) (start : Word)
  /-- Enter the pipeline loop (R199). -/
  | run
  /-- Back to the entry point (R198). -/
  | restart
  /-- Set the breakpoint register (R191). -/
  | setBreakpoint (a : Word)
  /-- Clear the breakpoint register (R191). -/
  | clearBreakpoint
  /-- Write a general register; the constant bank cannot be written (R200, 10 R17). -/
  | patchReg (i : RegIdx) (v : Word)
  /-- Write the flags (R200). -/
  | patchFlags (f : Flags)
  /-- Write a byte of instruction memory (R200). -/
  | patchIm (a : Word) (v : Byte)
  /-- Write a byte of data memory (R200). -/
  | patchDm (a : Word) (v : Byte)
  deriving DecidableEq, Repr

/-- The bytes of an image written over a memory; a byte the image does not write stays as it is (R201; log 23). -/
def Memory.writeBytes (m : Memory) : List (Word × Byte) → Memory
  | [] => m
  | (a, v) :: rest => (Memory.write m a.toNat v).writeBytes rest

/-- run(): nothing on a faulted machine; otherwise START is entered and cycles are taken (R199; 60 R166). -/
def State.enterRun (s : State) : State :=
  match s.faulted with
  | some _ => s
  | none => { s with cycleState := .start, running := true }

/-- restart(): R7, the clock and the cycle state, nothing else (R198). -/
def State.restart (s : State) : State :=
  { s.setReg pcIdx s.startingAddress with clockCycles := 0, cycleState := .start }

/-- The effect of a host operation on a machine that is not running. -/
def State.hostEffect (s : State) : HostOp → State
  | .load imBytes dmBytes start =>
    { s with im := Memory.writeBytes s.im imBytes, dm := Memory.writeBytes s.dm dmBytes, startingAddress := start }
  | .run => s.enterRun
  | .restart => s.restart
  | .setBreakpoint a => { s with breakpoint := some a }
  | .clearBreakpoint => { s with breakpoint := none }
  | .patchReg i v => s.setReg i v
  | .patchFlags f => s.setFlags f
  | .patchIm a v => { s with im := Memory.write s.im a.toNat v }
  | .patchDm a v => { s with dm := Memory.write s.dm a.toNat v }

/-- A host operation: allowed only while the core is not running; none, no move, otherwise (R200). -/
def hostStep (op : HostOp) (s : State) : Option State := if s.running then none else some (s.hostEffect op)

/-- Power-on reset: every piece of state at its reset value, allowed always, the only way out of a fault (R197). -/
def powerOnReset (_ : State) : State := State.reset

/-- Power-on reset under given parameters (R197). -/
def powerOnResetWith (p : Config.Params) (_ : State) : State := State.resetWith p

/-- What the host may read while the core is not running (R200). -/
structure HostView where
  regs : Vector Word 8
  constants : List Word
  flags : Flags
  im : Memory
  dm : Memory
  clockCycles : Nat
  failures : List FailureRecord
  deriving DecidableEq, Repr

/-- The dumps and reads of R200: registers of both banks, flags, both memories, the clock, the failures. -/
def hostView (s : State) : Option HostView :=
  if s.running then none
  else some
    { regs := s.x
      constants := (List.range 8).map fun i => constant (BitVec.ofNat 3 i)
      flags := s.flags
      im := s.im
      dm := s.dm
      clockCycles := s.clockCycles
      failures := s.failures }

/-- The boot sequence of R202 under given parameters: power-on reset, load, optionally the breakpoint, restart, run. -/
def bootWith (p : Config.Params) (imBytes dmBytes : List (Word × Byte)) (start : Word) (breakpoint : Option Word) : State :=
  let s := (State.resetWith p).hostEffect (.load imBytes dmBytes start)
  let s := { s with breakpoint := breakpoint }
  (s.hostEffect .restart).hostEffect .run

/-- The boot sequence of the machine the spec decides (R8, R202). -/
def boot (imBytes dmBytes : List (Word × Byte)) (start : Word) (breakpoint : Option Word) : State :=
  bootWith Config.params imBytes dmBytes start breakpoint

end Sys2Proof.Machine
end

