-- ==== Sys2Proof/Safety.lean ====
section
/-! DEFINITION. What the claims speak of: a run with no fault and no failure, the invariant of the machine, and the shapes of
change an instruction may make (spec/60_exceptions.md R161; 93_implementation_defined.md, treatments). -/

namespace Sys2Proof.Machine

/-- The machine will take a cycle: it is running and not faulted (70 R178). -/
abbrev State.Live (s : State) : Prop := s.running = true ∧ s.faulted = none

/-- Nothing has gone wrong so far: no model fault, and no execution failure recorded (93, `fault` and `refuse`). -/
abbrev State.Clean (s : State) : Prop := s.faulted = none ∧ s.failures = []

/-- What DCTRL must hold while the access of an instruction is pending; none for an instruction with no commit phase
(45_load_store.md R137, R141 to R144). -/
def accessCtrl : Instr → Option MemCtrl
  | .ld _ _ _ w _ _ => some (readCtrl w)
  | .ldr _ w _ _ => some (readCtrl w)
  | .st _ _ _ w _ _ => some (writeCtrl w)
  | .str _ w _ _ => some (writeCtrl w)
  | _ => none

/-- An address is even (10_state.md R24). -/
abbrev EvenTag (t : Option Word) : Prop := ∀ a, t = some a → a.getLsbD 0 = false

/-- A decoded record of a run: its instruction is the decode of its word, its address is even, and only the no-op has no
address (10_state.md R31, R38). -/
structure Decoded.Ok (p : Config.Params) (d : Decoded) : Prop where
  decoded : d.instr = decodeWord d.opcode
  even : EvenTag d.addr
  untagged : d.addr = none → d.opcode = p.nopWord

/-- The invariant of the machine under given parameters. -/
structure Inv (p : Config.Params) (s : State) : Prop where
  /-- Both memories keep their canonical form. -/
  imWf : Memory.wf s.im
  dmWf : Memory.wf s.dm
  /-- The bubble queue is within its capacity (R187). -/
  queue : s.bq.length ≤ p.bqCapacity
  /-- ICTRL only ever holds READ_WORD (R30). -/
  fetchCtrl : s.ictrl = .readWord
  /-- A word without an address tag is the no-op; a tag is even (R31, R185). -/
  untagged : s.irTag = none → s.ir = p.nopWord
  evenTag : EvenTag s.irTag
  /-- Both records are decodes (R38). -/
  cur : s.cur.Ok p
  prev : s.prev.Ok p
  /-- In the WAIT_0 cycle of a machine that has not faulted no access is pending, and the flush indicator is the request of
  the instruction just decoded (R140, R186). -/
  wait0 : s.faulted = none → s.cycleState = .wait0 →
    s.cur.pending = false ∧ s.prev.pending = false ∧ s.flushPending = s.cur.instr.requestsFlush
  /-- A machine that is not running is between slots (R194, R199). -/
  idle : s.running = false → s.cycleState ≠ .wait0
  /-- Between slots the flush indicator is clear, and a pending access is that of `prev`, under the control it set (R137, R185). -/
  between : s.faulted = none → s.cycleState ≠ .wait0 →
    s.flushPending = false ∧ (s.prev.pending = true → accessCtrl s.prev.instr = some s.dctrl)

/-- The general registers other than one are as they were. -/
abbrev OtherRegs (s t : State) (dst : RegIdx) : Prop := ∀ i, i ≠ dst → t.reg i = s.reg i

/-- Every byte of both memories reads as it did. -/
abbrev MemoryAsBefore (s t : State) : Prop :=
  ∀ a, Memory.read t.dm a = Memory.read s.dm a ∧ Memory.read t.im a = Memory.read s.im a

/-- Nothing but general registers and status flags changed: every other field of the state, and every byte of both
memories, is as it was. -/
def OnlyRegsAndFlags (s t : State) : Prop :=
  t = { s with x := t.x, flags := t.flags } ∧ MemoryAsBefore s t

/-- Nothing but general registers and the bubble queue changed. -/
def OnlyRegsAndQueue (s t : State) : Prop :=
  t = { s with x := t.x, bq := t.bq } ∧ MemoryAsBefore s t

/-- Nothing but general registers, DMAR, DCTRL and the pending bit of `cur` changed. -/
def OnlyRegsAndRequest (s t : State) : Prop :=
  t = { s with x := t.x, dmar := t.dmar, dctrl := t.dctrl, cur := { s.cur with pending := t.cur.pending } } ∧
    MemoryAsBefore s t

end Sys2Proof.Machine
end

