-- ==== Sys2Proof/Certificates/Slice0/Obligations.lean ====
section
/-! DEFINITION. The statements for the provers. Each docstring names the rules it comes from; "D<n>" is a decision of
spec/92_eei_decisions.md, which that file calls the spec's own choice, and "G<n>" a passage of 93 from general knowledge.
Every statement that decodes or encodes a word rests on D1 (the bit positions and the polarity of WB, general knowledge G3
and G5), every one with a constant operand on D11 (the polarity of RC, G4). -/

open Sys2Proof Sys2Proof.Machine

/-! ## Words of the statements, in numbers -/

namespace Sys2Proof.Claims

/-- v mod 2^w, as a number. -/
def low (w : Width) (v : Word) : Nat := v.toNat % 2 ^ bits w

/-- The number a register holds after a w-bit r is written over `old`: the bits above the width stay. -/
def kept (w : Width) (old : Word) (r : Nat) : Nat := old.toNat / 2 ^ bits w * 2 ^ bits w + r

/-- Bit w-1 of a w-bit number. -/
def top (w : Width) (r : Nat) : Bool := decide (2 ^ (bits w - 1) ≤ r)

/-- A w-bit number read as two's complement. -/
def signed (w : Width) (r : Nat) : Int := if top w r then (r : Int) - 2 ^ bits w else r

/-- The flags of the adder for the addends a and b and the carry-in (R100). -/
def AdderFlags (w : Width) (a b cin : Nat) (f : Flags) : Prop :=
  f.c = decide (a + b + cin > 2 ^ bits w - 1) ∧
  f.z = decide ((a + b + cin) % 2 ^ bits w = 0) ∧
  f.n = top w ((a + b + cin) % 2 ^ bits w) ∧
  f.v = ((top w a == top w b) && (top w ((a + b + cin) % 2 ^ bits w) != top w a))

/-- An addition of b and the carry-in into register dst, with its flags and its frame (R100, R102). -/
def AddsInto (w : Width) (dst : RegIdx) (b cin : Nat) (s t : State) : Prop :=
  (t.reg dst).toNat = kept w (s.reg dst) ((low w (s.reg dst) + b + cin) % 2 ^ bits w) ∧
  OtherRegs s t dst ∧
  AdderFlags w (low w (s.reg dst)) b cin t.flags ∧
  t.flags.slp = s.flags.slp ∧
  OnlyRegsAndFlags s t

/-- The words of F-REG with a given high byte decode to one instruction with the operands their bits name (R71). -/
def RegisterForm (op : Byte) (mk : Width → Operand → RegIdx → Instr) : Prop :=
  ∀ (rc wb : Bool) (src dst : RegIdx),
    decodeWord (op ++ BitVec.ofBool rc ++ BitVec.ofBool wb ++ src ++ dst) =
      mk (if wb then .byte else .word) (if rc then .const src else .reg src) dst

/-- The i-th decimal digit of a number (R108). -/
def digit (i v : Nat) : Nat := v / 16 ^ i % 16

/-- The number the lowest n digits stand for. -/
def decimal : Nat → Nat → Nat
  | 0, _ => 0
  | n + 1, v => decimal n v + digit n v * 10 ^ n

/-- A bitwise operation on the low w bits of dst, with Z and N of the result and its frame (R110). -/
def BitwiseInto (op : Bool → Bool → Bool) (w : Width) (src : Operand) (dst : RegIdx) (s t : State) : Prop :=
  (∀ k < 16, (t.reg dst).getLsbD k =
    if k < bits w then op ((s.reg dst).getLsbD k) ((s.operand src).getLsbD k) else (s.reg dst).getLsbD k) ∧
  OtherRegs s t dst ∧
  t.flags = { s.flags with z := decide (low w (t.reg dst) = 0), n := (t.reg dst).getLsbD (bits w - 1) } ∧
  OnlyRegsAndFlags s t

/-- Bit k of dst becomes b, with Z and N of the w-bit result and its frame (R116, R117). -/
def BitInto (b : Bool) (k : Nat) (w : Width) (dst : RegIdx) (s t : State) : Prop :=
  (∀ j < 16, (t.reg dst).getLsbD j = if j = k then b else (s.reg dst).getLsbD j) ∧
  OtherRegs s t dst ∧
  t.flags = { s.flags with z := decide (low w (t.reg dst) = 0), n := (t.reg dst).getLsbD (bits w - 1) } ∧
  OnlyRegsAndFlags s t

/-- The state after a failure of the instruction in `cur`, and nothing else (R163). -/
def failed (r : FailReason) (s : State) : State :=
  { s with
    failures := s.failures ++ [{ reason := r, addr := s.cur.addr, opcode := s.cur.opcode, cycle := s.clockCycles }]
    failedThisCycle := true }

/-- The taken action towards a target: R7, the queue with one flush entry, nothing else (R148). -/
def TakenTo (target : Word) (s t : State) : Prop :=
  t.reg 7 = target ∧ OtherRegs s t 7 ∧ t.bq = [true] ∧ OnlyRegsAndQueue s t

/-- A branch under a condition: taken to (R7 - 2) + offset, or nothing (R147, R148). -/
def BranchesIf (i : Instr) (c : Bool) (offset : Word) (s : State) : Prop :=
  ∃ t, exec i s = .next t ∧ if c then TakenTo ((s.reg 7 - 2) + offset) s t else t = s

/-- The words of F-BR with given bits 15..10 decode to one branch with the offset their low bits name (R70, R79). -/
def BranchForm (hi : BitVec 6) (mk : Word → Instr) : Prop :=
  ∀ f : BitVec 10, decodeWord (hi ++ f) = mk ((f ++ 0#1).signExtend 16)

/-- What an LD or ST compute phase leaves, on base register b (R138). -/
def IndirectRequest (prpo dec inc : Bool) (w : Width) (b : RegIdx) (ctrl : MemCtrl) (s t : State) : Prop :=
  let n : Word := if w = .word then 2 else 1
  let base := if inc then s.reg b + n else if dec then s.reg b - n else s.reg b
  t.reg b = base ∧ OtherRegs s t b ∧
  t.dmar = (if prpo then base else s.reg b) ∧ t.dctrl = ctrl ∧ t.cur.pending = true ∧
  OnlyRegsAndRequest s t

/-- What an LDR or STR compute phase leaves, on base register b (R143, R144). -/
def RelativeRequest (offset : Word) (b : RegIdx) (ctrl : MemCtrl) (s t : State) : Prop :=
  (∀ i, t.reg i = s.reg i) ∧
  t.dmar = s.reg b + offset ∧ t.dctrl = ctrl ∧ t.cur.pending = true ∧
  OnlyRegsAndRequest s t

/-- The flags each instruction may write: the rows of the table of R26. -/
def mayWrite : Instr → Flags
  | .add _ _ _ | .addc _ _ _ | .sub _ _ _ | .subc _ _ _ | .cmp _ _ _ | .dadd _ _ _ =>
    { c := true, z := true, n := true, v := true, slp := false }
  | .xor _ _ _ | .and _ _ _ | .or _ _ _ | .bit _ _ _ | .bic _ _ _ | .bis _ _ _ | .sra _ _ | .sxt _ =>
    { c := false, z := true, n := true, v := false, slp := false }
  | .rrc _ _ => { c := true, z := true, n := true, v := false, slp := false }
  | .setcc m | .clrcc m =>
    { c := m.getLsbD 0, z := m.getLsbD 1, n := m.getLsbD 2, slp := m.getLsbD 3, v := m.getLsbD 4 }
  | _ => { c := false, z := false, n := false, v := false, slp := false }

/-- The registers as a WAIT_1 cycle's commit finds them: R7 already advanced by fetch-phase-0 (R180, R184). -/
def atCommit (s : State) (i : RegIdx) : Word := if i = 7 then s.reg 7 + 2 else s.reg i

/-- The effective address of LD and ST (R138). -/
def effective (prpo dec inc : Bool) (w : Width) (base : Word) : Word :=
  let n : Word := if w = .word then 2 else 1
  if prpo then (if inc then base + n else if dec then base - n else base) else base

/-- LD or LDR of width w into dst, computed in state s, reads at ea and does not fault at compute (R138, R139, R143). -/
def LoadsFrom (i : Instr) (s : State) (w : Width) (dst : RegIdx) (ea : Word) : Prop :=
  (∃ prpo dec inc base, i = .ld prpo dec inc w base dst ∧ (inc && dec) = false ∧
    ea = effective prpo dec inc w (s.reg base)) ∨
  (∃ o base, i = .ldr o w base dst ∧ ea = s.reg base + o)

/-- ST or STR of width w from src, computed in state s, writes at ea and does not fault at compute (R138, R139, R144). -/
def StoresAt (i : Instr) (s : State) (w : Width) (src : RegIdx) (ea : Word) : Prop :=
  (∃ prpo dec inc base, i = .st prpo dec inc w src base ∧ (inc && dec) = false ∧
    ea = effective prpo dec inc w (s.reg base)) ∨
  (∃ o base, i = .str o w src base ∧ ea = s.reg base + o)

/-- A CEX with room: its entries follow those queued, `false` first when the condition holds, and nothing else changes (R132). -/
def CexQueued (c : Cond) (tc fc : BitVec 3) (s t : State) : Prop :=
  OnlyRegsAndQueue s t ∧ (∀ i, t.reg i = s.reg i) ∧
  t.bq = s.bq ++ (if s.flags.holds c then List.replicate tc.toNat false ++ List.replicate fc.toNat true
    else List.replicate tc.toNat true ++ List.replicate fc.toNat false)

/-- A CEX without room under a capacity: entries queued in order up to it, then the fault, and nothing else changes (R187). -/
def CexOverflows (capacity : Nat) (c : Cond) (tc fc : BitVec 3) (s t : State) : Prop :=
  ∃ q, t = { s with bq := s.bq ++ q, faulted := some .bqOverflow } ∧ (s.bq ++ q).length = capacity ∧
    q <+: (if s.flags.holds c then List.replicate tc.toNat false ++ List.replicate fc.toNat true
      else List.replicate tc.toNat true ++ List.replicate fc.toNat false)

/-- The offset of a branch or BL that is taken under the flags (R148, R149, R158). -/
def takenOffset (f : Flags) : Instr → Option Word
  | .beq o => if f.z then some o else none
  | .bne o => if f.z then none else some o
  | .bc o => if f.c then some o else none
  | .bnc o => if f.c then none else some o
  | .bn o => if f.n then some o else none
  | .bge o => if f.n = f.v then some o else none
  | .blt o => if f.n = f.v then none else some o
  | .bra o => some o
  | .bl o => if o = 0 then none else some o
  | _ => none

/-- A store whose destination field is R7 and whose compute phase does not fault (R92, R139). -/
def StoresToPc (i : Instr) : Prop :=
  (∃ prpo dec inc w src, i = .st prpo dec inc w src 7 ∧ (inc && dec) = false) ∨ (∃ o w src, i = .str o w src 7)

/-- The state with another value of SLP. -/
def withSlp (s : State) (b : Bool) : State := { s with flags := { s.flags with slp := b } }

/-- The flags n removals answer, and the state they leave (R188). -/
def popAll : Nat → State → List Bool × State
  | 0, s => ([], s)
  | n + 1, s => ((s.bqRemove.1 :: (popAll n s.bqRemove.2).1), (popAll n s.bqRemove.2).2)

/-- The bits of a word that the instruction it decodes to reads (R94). -/
def readMask : Instr → Word
  | .swap _ _ | .swpb _ | .sxt _ => 0xFFBF#16
  | .clrcc _ => 0xFFDF#16
  | _ => 0xFFFF#16

/-- A live machine in WAIT_0, no breakpoint set, the fetch in flight at an even address. -/
abbrev ReadyWait0 (s : State) : Prop :=
  s.Live ∧ s.cycleState = .wait0 ∧ s.breakpoint = none ∧ s.imar.getLsbD 0 = false

/-- A live machine in WAIT_1. -/
abbrev ReadyWait1 (s : State) : Prop := s.Live ∧ s.cycleState = .wait1

/-- A live machine whose next cycle fetches, decodes and commits: START or WAIT_1 (R179, R180). -/
abbrev ReadyCommit (s : State) : Prop := s.Live ∧ s.cycleState ≠ .wait0

end Sys2Proof.Claims

open Sys2Proof.Claims

/-! ## Decoding -/

/-- Decode after encode is the instruction, for every well-formed instruction (30_encoding.md section 8, E4; positions by D1,
the word `encode` writes for `undefined` by log 11). -/
def Obligations.DecodeEncodeRoundTrip : Prop := ∀ i : Instr, i.WellFormed → decodeWord (encode i) = i

/-- Encode after decode is the word, but for the bits no instruction reads, on every word that is an instruction; and
what a word decodes to is well formed (30_encoding.md sections 7 and 8, R94 by D19; positions by D1). That `encode` writes 0
in the bits no instruction reads is the model's own choice (log 11). -/
def Obligations.EncodeAfterDecode : Prop :=
  ∀ w : Word, (decodeWord w).WellFormed ∧
    (decodeWord w ≠ .undefined → encode (decodeWord w) = w &&& readMask (decodeWord w))

/-- Exactly the words of the table of R93 decode to Undefined (positions: D1, general knowledge G5). -/
def Obligations.UndefinedWordsExactly : Prop :=
  ∀ w : Word, decodeWord w = .undefined ↔
    w &&& 0xFFB8#16 = 0x4D10#16 ∨
    w &&& 0xFFB8#16 = 0x4D28#16 ∨ w &&& 0xFFB8#16 = 0x4D30#16 ∨ w &&& 0xFFB8#16 = 0x4D38#16 ∨
    w &&& 0xFFF8#16 = 0x4D88#16 ∨
    w &&& 0xFE00#16 = 0x4E00#16 ∨
    w &&& 0xFC00#16 = 0x5400#16

/-- The offset of a branch is twice its 10-bit field read as signed, even and in -1024 .. +1022; that of BL is twice its
13-bit field, even and in -8192 .. +8190 (R79, R80). -/
def Obligations.BranchAndLinkOffsets : Prop :=
  ∀ w : Word,
    ((branchOffset w).toInt = 2 * (w.extractLsb' 0 10).toInt ∧ (branchOffset w).getLsbD 0 = false ∧
      -1024 ≤ (branchOffset w).toInt ∧ (branchOffset w).toInt ≤ 1022 ∧
      (w.extractLsb' 0 10 = 0x3FF#10 → (branchOffset w).toInt = 2 * (-1)) ∧
      (w.extractLsb' 0 10 = 0x001#10 → (branchOffset w).toInt = 2 * 1)) ∧
    ((linkOffset w).toInt = 2 * (w.extractLsb' 0 13).toInt ∧ (linkOffset w).getLsbD 0 = false ∧
      -8192 ≤ (linkOffset w).toInt ∧ (linkOffset w).toInt ≤ 8190)

/-- A word of each family, written out bit by bit, decodes to the instruction it stands for (the examples of 41 to 46; positions by
D1, polarities by D1, D11 and D12). -/
def Obligations.SampleWordsDecode : Prop :=
  decodeWord 0b0000000000000101#16 = .bl 10 ∧
  decodeWord 0b0011110000000010#16 = .bra 4 ∧
  decodeWord 0b0100001011001000#16 = .sub .byte (.const 1) 0 ∧
  decodeWord 0b0100110001001010#16 = .mov .byte 1 2 ∧
  decodeWord 0b0100110101001000#16 = .rrc .byte 0 ∧
  decodeWord 0b0100110111100101#16 = .clrcc 0b00101 ∧
  decodeWord 0b0101000000010001#16 = .cex .eq 2 1 ∧
  decodeWord 0b0101110010011010#16 = .st false false true .word 3 2 ∧
  decodeWord 0b0110011001101000#16 = .movl 0xCD 0 ∧
  decodeWord 0b1111111000100010#16 = .str (-4) .word 4 2

/-! ## Arithmetic -/

/-- ADD and ADDC: encoding, result, flags, frame; neither can fail (41_arithmetic.md sections 1 and 2; positions and polarities
by D1 and D11, the high byte kept in byte mode by D13). -/
def Obligations.AddAndAddc : Prop :=
  RegisterForm 0x40 .add ∧ RegisterForm 0x41 .addc ∧
  (∀ w src dst s, ∃ t, exec (.add w src dst) s = .next t ∧ AddsInto w dst (low w (s.operand src)) 0 s t) ∧
  (∀ w src dst s, ∃ t, exec (.addc w src dst) s = .next t ∧
    AddsInto w dst (low w (s.operand src)) s.flags.c.toNat s t)

/-- SUBC: encoding, the one's complement of the source plus the carry, flags, frame (41_arithmetic.md section 2; positions and
polarities by D1 and D11, the high byte kept in byte mode by D13). -/
def Obligations.SubcAddsComplement : Prop :=
  RegisterForm 0x43 .subc ∧
  ∀ w src dst s, ∃ t, exec (.subc w src dst) s = .next t ∧
    AddsInto w dst ((2 ^ bits w - 1) - low w (s.operand src)) s.flags.c.toNat s t

/-- SUB and CMP: the source negated within the width (D14: 92 marks this width as the spec's own choice); CMP writes no
register, SUB keeps the high byte in byte mode by D13 (41_arithmetic.md section 2). -/
def Obligations.SubAndCmp : Prop :=
  (∀ w src dst s, ∃ t, exec (.sub w src dst) s = .next t ∧
    AddsInto w dst ((2 ^ bits w - low w (s.operand src)) % 2 ^ bits w) 0 s t) ∧
  (∀ w src dst s, ∃ t, exec (.cmp w src dst) s = .next t ∧ (∀ i, t.reg i = s.reg i) ∧
    AdderFlags w (low w (s.reg dst)) ((2 ^ bits w - low w (s.operand src)) % 2 ^ bits w) 0 t.flags ∧
    t.flags.slp = s.flags.slp ∧ OnlyRegsAndFlags s t)

/-- The carry of a subtraction is "no borrow": for SUBC with C = 1 exactly when a ≥ s, for SUB and CMP the same but 0
when s = 0; and the result is a - s modulo 2^w (41_arithmetic.md sections 1 and 2, D14). -/
def Obligations.SubtractionCarryIsNoBorrow : Prop :=
  ∀ (w : Width) (src : Operand) (dst : RegIdx) (s : State),
    (∃ t, exec (.sub w src dst) s = .next t ∧
      (low w (t.reg dst) + low w (s.operand src)) % 2 ^ bits w = low w (s.reg dst) ∧
      t.flags.c = decide (low w (s.operand src) ≠ 0 ∧ low w (s.operand src) ≤ low w (s.reg dst)) ∧
      t.flags.z = decide (low w (s.reg dst) = low w (s.operand src))) ∧
    (∃ t, exec (.cmp w src dst) s = .next t ∧
      t.flags.c = decide (low w (s.operand src) ≠ 0 ∧ low w (s.operand src) ≤ low w (s.reg dst)) ∧
      t.flags.z = decide (low w (s.reg dst) = low w (s.operand src))) ∧
    (∃ t, exec (.subc w src dst) s = .next t ∧
      (low w (t.reg dst) + low w (s.operand src) + 1) % 2 ^ bits w =
        (low w (s.reg dst) + s.flags.c.toNat) % 2 ^ bits w ∧
      t.flags.c = decide (low w (s.operand src) + 1 ≤ low w (s.reg dst) + s.flags.c.toNat))

/-- The overflow flag of ADD and ADDC is set exactly when the sum of the operands read as signed numbers does not fit, the
carry exactly when the unsigned sum does not (E2, 41_arithmetic.md section 1). -/
def Obligations.AdditionOverflowIsSigned : Prop :=
  ∀ (w : Width) (src : Operand) (dst : RegIdx) (s t : State) (cin : Nat),
    (exec (.add w src dst) s = .next t ∧ cin = 0 ∨ exec (.addc w src dst) s = .next t ∧ cin = s.flags.c.toNat) →
    let sum := signed w (low w (s.reg dst)) + signed w (low w (s.operand src)) + cin
    t.flags.v = decide (sum < -2 ^ (bits w - 1) ∨ 2 ^ (bits w - 1) ≤ sum) ∧
    (t.flags.v = false → signed w (low w (t.reg dst)) = sum) ∧
    low w (t.reg dst) + t.flags.c.toNat * 2 ^ bits w = low w (s.reg dst) + low w (s.operand src) + cin

/-- DADD digit by digit, for every operand (41_arithmetic.md section 2, DADD; carry-in, carry-out and digits above 9 by D15). -/
def Obligations.DaddDigitByDigit : Prop :=
  ∀ (w : Width) (src : Operand) (dst : RegIdx) (s : State), ∃ t, exec (.dadd w src dst) s = .next t ∧
    (∃ c : Nat → Bool, c 0 = s.flags.c ∧
      (∀ i < bits w / 4,
        let d := digit i (s.reg dst).toNat + digit i (s.operand src).toNat + (c i).toNat
        digit i (t.reg dst).toNat = (if d > 9 then (d - 10) % 16 else d) ∧ c (i + 1) = decide (d > 9)) ∧
      t.flags.c = c (bits w / 4)) ∧
    (t.reg dst).toNat / 2 ^ bits w = (s.reg dst).toNat / 2 ^ bits w ∧
    OtherRegs s t dst ∧
    t.flags.z = decide (low w (t.reg dst) = 0) ∧ t.flags.n = false ∧ t.flags.v = false ∧ t.flags.slp = s.flags.slp ∧
    OnlyRegsAndFlags s t

/-- On decimal operands DADD is decimal addition: the digits of the result are decimal, and the number they stand for,
with the carry as a further digit, is the sum of the operands and the carry-in (41_arithmetic.md section 2, DADD; D15). -/
def Obligations.DaddIsDecimalAddition : Prop :=
  ∀ (w : Width) (src : Operand) (dst : RegIdx) (s t : State),
    (∀ i < bits w / 4, digit i (s.reg dst).toNat ≤ 9 ∧ digit i (s.operand src).toNat ≤ 9) →
    exec (.dadd w src dst) s = .next t →
    (∀ i < bits w / 4, digit i (t.reg dst).toNat ≤ 9) ∧
    decimal (bits w / 4) (t.reg dst).toNat + t.flags.c.toNat * 10 ^ (bits w / 4) =
      decimal (bits w / 4) (s.reg dst).toNat + decimal (bits w / 4) (s.operand src).toNat + s.flags.c.toNat

/-! ## Logic and bits -/

/-- XOR, AND, OR: encoding, result bit by bit, Z and N, frame (42_logic_bit.md section 1; positions and polarities by D1 and
D11). -/
def Obligations.XorAndOr : Prop :=
  RegisterForm 0x46 .xor ∧ RegisterForm 0x47 .and ∧ RegisterForm 0x48 .or ∧
  (∀ w src dst s, ∃ t, exec (.xor w src dst) s = .next t ∧ BitwiseInto Bool.xor w src dst s t) ∧
  (∀ w src dst s, ∃ t, exec (.and w src dst) s = .next t ∧ BitwiseInto Bool.and w src dst s t) ∧
  (∀ w src dst s, ∃ t, exec (.or w src dst) s = .next t ∧ BitwiseInto Bool.or w src dst s t)

/-- BIT, BIC, BIS with an index in range (42_logic_bit.md section 2; the full source as index by D17, the flags by
D16, the high byte kept in byte mode by D13). -/
def Obligations.BitIndexInRange : Prop :=
  ∀ (w : Width) (src : Operand) (dst : RegIdx) (s : State), (s.operand src).toNat < bits w →
    (∃ t, exec (.bit w src dst) s = .next t ∧ (∀ i, t.reg i = s.reg i) ∧
      t.flags = { s.flags with
        z := !(s.reg dst).getLsbD (s.operand src).toNat
        n := decide ((s.operand src).toNat = bits w - 1) && (s.reg dst).getLsbD (bits w - 1) } ∧
      OnlyRegsAndFlags s t) ∧
    (∃ t, exec (.bic w src dst) s = .next t ∧ BitInto false (s.operand src).toNat w dst s t) ∧
    (∃ t, exec (.bis w src dst) s = .next t ∧ BitInto true (s.operand src).toNat w dst s t ∧ t.flags.z = false)

/-- BIT, BIC, BIS with an index of w or more record a failure and do nothing else (42_logic_bit.md section 2; D17, D18). -/
def Obligations.BitIndexOutOfRangeFails : Prop :=
  ∀ (w : Width) (src : Operand) (dst : RegIdx) (s : State), bits w ≤ (s.operand src).toNat →
    exec (.bit w src dst) s = .next (failed .bitIndexOutOfRange s) ∧
    exec (.bic w src dst) s = .next (failed .bitIndexOutOfRange s) ∧
    exec (.bis w src dst) s = .next (failed .bitIndexOutOfRange s)

/-! ## Moves and shifts -/

/-- MOV and SWAP, with the flush of a write of R7 (43_move_shift.md section 1; which writes flush by D20; the
high byte of a byte MOV is kept by the source). -/
def Obligations.MovAndSwap : Prop :=
  (∀ w src dst s, ∃ t, exec (.mov w src dst) s = .next t ∧
    (t.reg dst).toNat = kept w (s.reg dst) (low w (s.reg src)) ∧ OtherRegs s t dst ∧
    t.bq = (if dst = 7 then [true] else s.bq) ∧ OnlyRegsAndQueue s t) ∧
  (∀ src dst s, ∃ t, exec (.swap src dst) s = .next t ∧
    t.reg src = s.reg dst ∧ t.reg dst = s.reg src ∧ (∀ i, i ≠ src → i ≠ dst → t.reg i = s.reg i) ∧
    t.bq = (if src = 7 ∨ dst = 7 then [true] else s.bq) ∧ OnlyRegsAndQueue s t)

/-- SRA and RRC: encoding, result, flags, frame (43_move_shift.md section 2; positions and polarity by D1, the high byte kept in
byte mode by D13). -/
def Obligations.SraAndRrc : Prop :=
  (∀ (wb : Bool) (dst : RegIdx), decodeWord (0b010011010#9 ++ BitVec.ofBool wb ++ 0b000#3 ++ dst) =
    .sra (if wb then .byte else .word) dst) ∧
  (∀ (wb : Bool) (dst : RegIdx), decodeWord (0b010011010#9 ++ BitVec.ofBool wb ++ 0b001#3 ++ dst) =
    .rrc (if wb then .byte else .word) dst) ∧
  (∀ w dst s, ∃ t, exec (.sra w dst) s = .next t ∧
    (t.reg dst).toNat = kept w (s.reg dst)
      (low w (s.reg dst) / 2 + (top w (low w (s.reg dst))).toNat * 2 ^ (bits w - 1)) ∧
    OtherRegs s t dst ∧
    t.flags = { s.flags with z := decide (low w (t.reg dst) = 0), n := top w (low w (t.reg dst)) } ∧
    OnlyRegsAndFlags s t) ∧
  (∀ w dst s, ∃ t, exec (.rrc w dst) s = .next t ∧
    (t.reg dst).toNat = kept w (s.reg dst) (low w (s.reg dst) / 2 + s.flags.c.toNat * 2 ^ (bits w - 1)) ∧
    OtherRegs s t dst ∧
    t.flags = { s.flags with
      c := decide (low w (s.reg dst) % 2 = 1), z := decide (low w (t.reg dst) = 0), n := top w (low w (t.reg dst)) } ∧
    OnlyRegsAndFlags s t)

/-- SWPB and SXT: encoding with bit 6 free, result, flags, frame (43_move_shift.md section 2; positions by D1, bit 6 by D19). -/
def Obligations.SwpbAndSxt : Prop :=
  (∀ (b6 : Bool) (dst : RegIdx), decodeWord (0b010011010#9 ++ BitVec.ofBool b6 ++ 0b011#3 ++ dst) = .swpb dst) ∧
  (∀ (b6 : Bool) (dst : RegIdx), decodeWord (0b010011010#9 ++ BitVec.ofBool b6 ++ 0b100#3 ++ dst) = .sxt dst) ∧
  (∀ dst s, ∃ t, exec (.swpb dst) s = .next t ∧
    (t.reg dst).toNat = (s.reg dst).toNat % 256 * 256 + (s.reg dst).toNat / 256 ∧
    OtherRegs s t dst ∧ t.flags = s.flags ∧ OnlyRegsAndFlags s t) ∧
  (∀ dst s, ∃ t, exec (.sxt dst) s = .next t ∧
    (t.reg dst).toInt = signed .byte ((s.reg dst).toNat % 256) ∧
    OtherRegs s t dst ∧
    t.flags = { s.flags with z := decide ((t.reg dst).toNat = 0), n := (t.reg dst).getLsbD 15 } ∧
    OnlyRegsAndFlags s t)

/-- MOVL, MOVLZ, MOVLS, MOVH: result, no flag, no flush, frame (43_move_shift.md section 3; D22, general knowledge G11 to G15). -/
def Obligations.ImmediateMoves : Prop :=
  ∀ (b : Byte) (dst : RegIdx) (s : State),
    (∃ t, exec (.movl b dst) s = .next t ∧ (t.reg dst).toNat = (s.reg dst).toNat / 256 * 256 + b.toNat ∧
      OtherRegs s t dst ∧ t.flags = s.flags ∧ OnlyRegsAndFlags s t) ∧
    (∃ t, exec (.movlz b dst) s = .next t ∧ (t.reg dst).toNat = b.toNat ∧
      OtherRegs s t dst ∧ t.flags = s.flags ∧ OnlyRegsAndFlags s t) ∧
    (∃ t, exec (.movls b dst) s = .next t ∧ (t.reg dst).toNat = 0xFF00 + b.toNat ∧
      OtherRegs s t dst ∧ t.flags = s.flags ∧ OnlyRegsAndFlags s t) ∧
    (∃ t, exec (.movh b dst) s = .next t ∧ (t.reg dst).toNat = b.toNat * 256 + (s.reg dst).toNat % 256 ∧
      OtherRegs s t dst ∧ t.flags = s.flags ∧ OnlyRegsAndFlags s t)

/-! ## Status, conditional execution, failures -/

/-- SETCC sets and CLRCC clears exactly the flags the mask names, bit 0 C, 1 Z, 2 N, 3 SLP, 4 V, and nothing else
(44_status_cex.md section 1; the bit assignment by D10, general knowledge G6). -/
def Obligations.SetccAndClrcc : Prop :=
  ∀ (m : BitVec 5) (s : State),
    (∃ t, exec (.setcc m) s = .next t ∧ (∀ i, t.reg i = s.reg i) ∧ OnlyRegsAndFlags s t ∧
      t.flags.c = (if m.getLsbD 0 then true else s.flags.c) ∧ t.flags.z = (if m.getLsbD 1 then true else s.flags.z) ∧
      t.flags.n = (if m.getLsbD 2 then true else s.flags.n) ∧ t.flags.slp = (if m.getLsbD 3 then true else s.flags.slp) ∧
      t.flags.v = (if m.getLsbD 4 then true else s.flags.v)) ∧
    (∃ t, exec (.clrcc m) s = .next t ∧ (∀ i, t.reg i = s.reg i) ∧ OnlyRegsAndFlags s t ∧
      t.flags.c = (if m.getLsbD 0 then false else s.flags.c) ∧ t.flags.z = (if m.getLsbD 1 then false else s.flags.z) ∧
      t.flags.n = (if m.getLsbD 2 then false else s.flags.n) ∧ t.flags.slp = (if m.getLsbD 3 then false else s.flags.slp) ∧
      t.flags.v = (if m.getLsbD 4 then false else s.flags.v))

/-- The sixteen condition codes of CEX (30_encoding.md section 5; the table by D8, general knowledge G8). -/
def Obligations.ConditionTable : Prop :=
  ∀ f : Flags,
    f.holds (Cond.ofBits 0b0000) = f.z ∧ f.holds (Cond.ofBits 0b0001) = !f.z ∧
    f.holds (Cond.ofBits 0b0010) = f.c ∧ f.holds (Cond.ofBits 0b0011) = !f.c ∧
    f.holds (Cond.ofBits 0b0100) = f.n ∧ f.holds (Cond.ofBits 0b0101) = !f.n ∧
    f.holds (Cond.ofBits 0b0110) = f.v ∧ f.holds (Cond.ofBits 0b0111) = !f.v ∧
    f.holds (Cond.ofBits 0b1000) = decide (f.c = true ∧ f.z = false) ∧
    f.holds (Cond.ofBits 0b1001) = decide (f.c = false ∨ f.z = true) ∧
    f.holds (Cond.ofBits 0b1010) = decide (f.n = f.v) ∧ f.holds (Cond.ofBits 0b1011) = decide (f.n ≠ f.v) ∧
    f.holds (Cond.ofBits 0b1100) = decide (f.z = false ∧ f.n = f.v) ∧
    f.holds (Cond.ofBits 0b1101) = decide (f.z = true ∨ f.n ≠ f.v) ∧
    f.holds (Cond.ofBits 0b1110) = true ∧ f.holds (Cond.ofBits 0b1111) = false

/-- CEX with room in the queue: its entries follow those queued, `false` first when the condition holds, `true` first when it
does not; nothing else changes. The same under every BQ_CAPACITY (44_status_cex.md section 2; the condition table by D8, the
capacity by D7). -/
def Obligations.CexQueuesDecisions : Prop :=
  (∀ (c : Cond) (tc fc : BitVec 3) (s : State), s.bq.length + tc.toNat + fc.toNat ≤ 32 →
    ∃ t, exec (.cex c tc fc) s = .next t ∧ CexQueued c tc fc s t) ∧
  (∀ (p : Config.Params) (c : Cond) (tc fc : BitVec 3) (s : State), s.bq.length + tc.toNat + fc.toNat ≤ p.bqCapacity →
    ∃ t, execWith p (.cex c tc fc) s = .next t ∧ CexQueued c tc fc s t)

/-- CEX without room: the queue is filled to its capacity in order, the fault BQOverflow is raised, nothing else changes. The
same under every BQ_CAPACITY (70_reset_and_hazards.md section 3, vector S13; the capacity and the fault by D7). The premise on
the queue's length is a part of the invariant `Inv`. -/
def Obligations.CexOverflowFaults : Prop :=
  (∀ (c : Cond) (tc fc : BitVec 3) (s : State), s.bq.length ≤ 32 → 32 < s.bq.length + tc.toNat + fc.toNat →
    ∃ t, exec (.cex c tc fc) s = .next t ∧ CexOverflows 32 c tc fc s t) ∧
  (∀ (p : Config.Params) (c : Cond) (tc fc : BitVec 3) (s : State), s.bq.length ≤ p.bqCapacity →
    p.bqCapacity < s.bq.length + tc.toNat + fc.toNat →
    ∃ t, execWith p (.cex c tc fc) s = .next t ∧ CexOverflows p.bqCapacity c tc fc s t)

/-- SETPRI, SVC and every Undefined word record one failure and do nothing else (44_status_cex.md section 3; the record by
D18 and D39). -/
def Obligations.FailingInstructions : Prop :=
  (∀ (p : BitVec 3) (s : State), decodeWord (0b0100110110000#13 ++ p) = .setpri p ∧
    exec (.setpri p) s = .next (failed .unimplementedSetpri s)) ∧
  (∀ (a : BitVec 4) (s : State), decodeWord (0x4D9#12 ++ a) = .svc a ∧
    exec (.svc a) s = .next (failed .unimplementedSvc s)) ∧
  (∀ s : State, exec .undefined s = .next (failed .undefinedWord s))

/-! ## Loads and stores -/

/-- The compute phase of LD (base src) and ST (base dst): base update, address, control, pending; no memory byte and no other
register changes (45_load_store.md sections 1 and 2; polarity by D12, the base updated at compute by D34). -/
def Obligations.LdAndStCompute : Prop :=
  ∀ (prpo dec inc : Bool) (w : Width) (src dst : RegIdx) (s : State), (inc && dec) = false →
    (∃ t, exec (.ld prpo dec inc w src dst) s = .next t ∧
      IndirectRequest prpo dec inc w src (if w = .word then .readWord else .readByte) s t) ∧
    (∃ t, exec (.st prpo dec inc w src dst) s = .next t ∧
      IndirectRequest prpo dec inc w dst (if w = .word then .writeWord else .writeByte) s t)

/-- The compute phase of LDR (base src) and STR (base dst): address, control, pending; the base does not change
(45_load_store.md section 2; the unscaled 7-bit offset by D32). -/
def Obligations.LdrAndStrCompute : Prop :=
  ∀ (o : Word) (w : Width) (src dst : RegIdx) (s : State),
    (∃ t, exec (.ldr o w src dst) s = .next t ∧
      RelativeRequest o src (if w = .word then .readWord else .readByte) s t) ∧
    (∃ t, exec (.str o w src dst) s = .next t ∧
      RelativeRequest o dst (if w = .word then .writeWord else .writeByte) s t)

/-- LD or ST with INC and DEC both set: the cycle enters the terminal fault state with no register, flag or memory byte
changed, and no later step is taken (45_load_store.md section 1, D12; the fault state by D23). -/
def Obligations.IncAndDecFaults : Prop :=
  ∀ (prpo : Bool) (w : Width) (src dst : RegIdx) (s : State), s.Live → s.cycleState = .wait0 →
    (s.cur.instr = .ld prpo true true w src dst ∨ s.cur.instr = .st prpo true true w src dst) →
    ∃ t, step s = .next t ∧ t.faulted = some (.ldStIncAndDec s.cur.opcode) ∧
      (∀ i, t.reg i = s.reg i) ∧ t.flags = s.flags ∧ t.bq = s.bq ∧ MemoryAsBefore s t ∧
      t.clockCycles = s.clockCycles + 1 ∧ step t = .fault (.ldStIncAndDec s.cur.opcode)

/-- The commit of a load, in the WAIT_1 cycle after its compute phase, or in the START cycle of a run resumed between the two:
the destination takes the word, or the byte in its low half with the high half kept; no memory byte changes
(45_load_store.md section 1, 20_memory.md section 6, 70_reset_and_hazards.md sections 4 and 5; D13, D21). -/
def Obligations.CommitLoads : Prop :=
  ∀ (s : State) (d : RegIdx), ReadyCommit s → s.prev.pending = true → d = s.prev.instr.fields.dst →
    (s.dctrl = .readWord → s.dmar.getLsbD 0 = false →
      ∃ t, step s = .next t ∧
        (t.reg d).toNat = (Memory.read s.dm s.dmar.toNat).toNat + 256 * (Memory.read s.dm (s.dmar.toNat + 1)).toNat ∧
        (∀ i, i ≠ d → t.reg i = atCommit s i) ∧ t.dmbr = t.reg d ∧ t.flags = s.flags ∧ t.bq = s.bq ∧
        MemoryAsBefore s t ∧ t.prev.pending = false ∧ t.cycleState = .wait0) ∧
    (s.dctrl = .readByte →
      ∃ t, step s = .next t ∧
        (t.reg d).toNat = (atCommit s d).toNat / 256 * 256 + (Memory.read s.dm s.dmar.toNat).toNat ∧
        (∀ i, i ≠ d → t.reg i = atCommit s i) ∧ t.flags = s.flags ∧ t.bq = s.bq ∧
        MemoryAsBefore s t ∧ t.prev.pending = false ∧ t.cycleState = .wait0)

/-- The commit of a store: the low byte at DMAR, for a word the high byte at DMAR + 1, every other byte of data memory and all
of instruction memory as before; the data register is read in this cycle, after R7 has advanced; no register but R7 changes.
The cycle is the WAIT_1 cycle after the compute phase, or the START cycle of a run resumed between the two (45_load_store.md
section 1, 20_memory.md sections 2 and 6; the time of the read by D21). -/
def Obligations.CommitStores : Prop :=
  ∀ (s : State) (v : Word), ReadyCommit s → s.prev.pending = true → v = atCommit s s.prev.instr.fields.src →
    (s.dctrl = .writeWord → s.dmar.getLsbD 0 = false →
      ∃ t, step s = .next t ∧
        (∀ a, (Memory.read t.dm a).toNat = if a = s.dmar.toNat then v.toNat % 256
          else if a = s.dmar.toNat + 1 then v.toNat / 256 else (Memory.read s.dm a).toNat) ∧
        (∀ a, Memory.read t.im a = Memory.read s.im a) ∧ (∀ i, t.reg i = atCommit s i) ∧ t.dmbr = v ∧
        t.flags = s.flags ∧ t.bq = s.bq ∧ t.prev.pending = false ∧ t.cycleState = .wait0) ∧
    (s.dctrl = .writeByte →
      ∃ t, step s = .next t ∧
        (∀ a, (Memory.read t.dm a).toNat = if a = s.dmar.toNat then v.toNat % 256 else (Memory.read s.dm a).toNat) ∧
        (∀ a, Memory.read t.im a = Memory.read s.im a) ∧ (∀ i, t.reg i = atCommit s i) ∧ t.dmbr = v ∧
        t.flags = s.flags ∧ t.bq = s.bq ∧ t.prev.pending = false ∧ t.cycleState = .wait0)

/-- A word access at an odd address: the fault is raised before any byte or register is moved; fetch-phase-0 and the clock of
the same cycle, START or WAIT_1, stay (20_memory.md section 3, 45_load_store.md section 1; the fault by D23). -/
def Obligations.MisalignedDataFaults : Prop :=
  ∀ s : State, ReadyCommit s → s.prev.pending = true → (s.dctrl = .readWord ∨ s.dctrl = .writeWord) →
    s.dmar.getLsbD 0 = true →
    ∃ t, step s = .next t ∧ t.faulted = some (.misalignedData s.dmar) ∧ MemoryAsBefore s t ∧
      (∀ i, t.reg i = atCommit s i) ∧ t.dmbr = s.dmbr ∧ t.clockCycles = s.clockCycles + 1 ∧
      step t = .fault (.misalignedData s.dmar)

/-- A word of data memory lies with its low byte first: a read gives the two bytes, a write sets the two bytes and no other
(R45; the address is even, as every word access that does not fault). -/
def Obligations.DataMemoryLittleEndian : Prop :=
  ∀ (m : Memory) (a v : Word), a.getLsbD 0 = false →
    (Memory.readWord m a).toNat = (Memory.read m a.toNat).toNat + 256 * (Memory.read m (a.toNat + 1)).toNat ∧
    (Memory.read (Memory.writeWord m a v) a.toNat).toNat = v.toNat % 256 ∧
    (Memory.read (Memory.writeWord m a v) (a.toNat + 1)).toNat = v.toNat / 256 ∧
    ∀ b, b ≠ a.toNat → b ≠ a.toNat + 1 → Memory.read (Memory.writeWord m a v) b = Memory.read m b

/-- Byte and word accesses meet in the same bytes: a byte store changes one half of the word around it and leaves the other
(20_memory.md section 2, which marks this as derived from R43 and R45). -/
def Obligations.MixedWidthAccess : Prop :=
  ∀ (m : Memory) (a v : Word), a.getLsbD 0 = false →
    (Memory.readWord (Memory.writeByte m a v) a).toNat =
      (Memory.readWord m a).toNat / 256 * 256 + v.toNat % 256 ∧
    (Memory.readWord (Memory.writeByte m (a + 1) v) a).toNat =
      v.toNat % 256 * 256 + (Memory.readWord m a).toNat % 256

/-- A load, LD or LDR, is seen by the next instruction's compute phase: two cycles after its compute the destination holds the
memory's data at the effective address (20_memory.md section 6, 70_reset_and_hazards.md section 7; D12, D32, D34). -/
def Obligations.LoadReachesNextCompute : Prop :=
  ∀ (w : Width) (dst : RegIdx) (ea : Word) (s : State), ReadyWait0 s → LoadsFrom s.cur.instr s w dst ea →
    (w = .word → ea.getLsbD 0 = false) →
    ∃ t u, step s = .next t ∧ step t = .next u ∧ u.cycleState = .wait0 ∧ u.faulted = none ∧
      low w (u.reg dst) = (if w = .word then (Memory.readWord s.dm ea).toNat else (Memory.read s.dm ea.toNat).toNat) ∧
      MemoryAsBefore s u

/-- A store, ST or STR, is in memory before the next instruction's compute phase: two cycles after its compute the bytes at the
effective address are those of the data register as it then is, and no other byte has changed (20_memory.md section 6; D12,
D21, D32, D34). -/
def Obligations.StoreReachesMemory : Prop :=
  ∀ (w : Width) (src : RegIdx) (ea : Word) (s : State), ReadyWait0 s → StoresAt s.cur.instr s w src ea →
    (w = .word → ea.getLsbD 0 = false) →
    ∃ t u, step s = .next t ∧ step t = .next u ∧ u.cycleState = .wait0 ∧ u.faulted = none ∧
      (∀ a, (Memory.read u.dm a).toNat =
        if a = ea.toNat then (u.reg src).toNat % 256
        else if w = .word ∧ a = ea.toNat + 1 then (u.reg src).toNat / 256
        else (Memory.read s.dm a).toNat) ∧
      ∀ a, Memory.read u.im a = Memory.read s.im a

/-! ## Branches -/

/-- The eight branches: encoding, condition, target, flush, frame; one not taken changes nothing (46_branch.md sections 1 and
2; the table by D9, the offset 0 of a branch by D4). -/
def Obligations.ConditionalBranches : Prop :=
  (BranchForm 0b001000 .beq ∧ BranchForm 0b001001 .bne ∧ BranchForm 0b001010 .bc ∧ BranchForm 0b001011 .bnc ∧
    BranchForm 0b001100 .bn ∧ BranchForm 0b001101 .bge ∧ BranchForm 0b001110 .blt ∧ BranchForm 0b001111 .bra) ∧
  ∀ (o : Word) (s : State),
    BranchesIf (.beq o) s.flags.z o s ∧ BranchesIf (.bne o) (!s.flags.z) o s ∧
    BranchesIf (.bc o) s.flags.c o s ∧ BranchesIf (.bnc o) (!s.flags.c) o s ∧
    BranchesIf (.bn o) s.flags.n o s ∧ BranchesIf (.bge o) (decide (s.flags.n = s.flags.v)) o s ∧
    BranchesIf (.blt o) (decide (s.flags.n ≠ s.flags.v)) o s ∧ BranchesIf (.bra o) true o s

/-- BL: the return address into R5, then taken; with offset 0 nothing at all (46_branch.md section 3; the sentinel by D3). -/
def Obligations.BranchAndLink : Prop :=
  ∀ (o : Word) (s : State),
    (o = 0 → exec (.bl o) s = .next s) ∧
    (o ≠ 0 → ∃ t, exec (.bl o) s = .next t ∧ t.reg 5 = s.reg 7 - 2 ∧ t.reg 7 = (s.reg 7 - 2) + o ∧
      (∀ i, i ≠ 5 → i ≠ 7 → t.reg i = s.reg i) ∧ t.bq = [true] ∧ OnlyRegsAndQueue s t)

/-- A taken branch or BL in its slot: the word in flight becomes a no-op whatever memory holds, the queue is empty again, and
the next cycle's fetch is at the target, while the no-op is decoded (46_branch.md section 1, 70_reset_and_hazards.md section 2,
E8; the order within WAIT_0 by D5, the BL sentinel by D3). The premise on `pending` is a part of the invariant `Inv`. -/
def Obligations.TakenBranchDropsNextWord : Prop :=
  ∀ (s : State) (o : Word), ReadyWait0 s → s.cur.pending = false → takenOffset s.flags s.cur.instr = some o →
    ∃ t u, step s = .next t ∧ t.ir = 0x0000#16 ∧ t.irTag = none ∧ t.bq = [] ∧ t.flushPending = false ∧
      t.reg 7 = (s.reg 7 - 2) + o ∧ t.cycleState = .wait1 ∧
      step t = .next u ∧ u.imar = (s.reg 7 - 2) + o ∧ u.cur = Decoded.nop ∧ u.cycleState = .wait0

/-- Branch and BL words keep the parity of R7, taken or not (20_memory.md section 3, the reach of a misaligned fetch). -/
def Obligations.BranchTargetsKeepParity : Prop :=
  ∀ (w : Word) (s t : State), (w.extractLsb' 13 3 = 0b000#3 ∨ w.extractLsb' 13 3 = 0b001#3) →
    exec (decodeWord w) s = .next t → (t.reg 7).getLsbD 0 = (s.reg 7).getLsbD 0

/-- A decoded ST or STR with destination field 7 suppresses the word fetched in its slot and consumes the oldest queue entry
all the same; and no other decoded instruction raises the flush indicator, in any START or WAIT_1 cycle (E9, 30_encoding.md
section 6, 70_reset_and_hazards.md section 2; D6, D33). -/
def Obligations.StoreToPcDropsNextWord : Prop :=
  (∀ s : State, ReadyWait1 s → s.prev.pending = false → s.breakpoint = none → (s.reg 7).getLsbD 0 = false →
    StoresToPc (decodeWord s.ir) →
    ∃ t u, step s = .next t ∧ t.flushPending = true ∧ step t = .next u ∧ u.ir = 0x0000#16 ∧ u.irTag = none ∧
      u.flushPending = false ∧ u.bq = s.bq.tail ∧ u.prev.pending = true) ∧
  (∀ s : State, ReadyCommit s → ∃ t, step s = .next t ∧
    (t.flushPending = true ↔ s.flushPending = true ∨
      (∃ prpo dec inc w src, t.cur.instr = .st prpo dec inc w src 7) ∨ (∃ o w src, t.cur.instr = .str o w src 7)) ∧
    t.cur.instr = decodeWord (if s.cycleState = .start then 0x0000#16 else s.ir))

/-! ## The cycle -/

/-- A WAIT_0 cycle computes the instruction decoded in the slot, then saves it, completes the fetch and checks for a halt; so it
does under every value of the parameters, of which CEX alone reads one in its compute phase, and the step takes the values the
spec decides (70_reset_and_hazards.md section 1, 00_scope.md section 3; the order by D5). -/
def Obligations.StepRunsCurrentInstruction : Prop :=
  (∀ s : State, s.Live → s.cycleState = .wait0 →
    step s = match exec s.cur.instr s.tick with
      | .next t => .next (t.finishWait0 Config.params)
      | .fault r => .fault r
      | .refused r => .refused r) ∧
  (∀ (p : Config.Params) (s : State), s.Live → s.cycleState = .wait0 →
    s.stepWith p = match execWith p s.cur.instr s.tick with
      | .next t => .next (t.finishWait0 p)
      | .fault r => .fault r
      | .refused r => .refused r) ∧
  (∀ (p : Config.Params) (i : Instr) (s : State), (∀ c tc fc, i ≠ .cex c tc fc) → execWith p i s = exec i s) ∧
  (∀ s : State, step s = s.stepWith
    { bqCapacity := 32, nopWord := 0x0000#16, failurePolicy := .proceed, haltOnZeroFetch := false,
      misalignedPolicy := .fault, breakpointRollback := 4 })

/-- The bytes a fetch reads are the instruction the slot after it computes, whatever instruction the slot of the fetch computed:
a WAIT_0 cycle with no suppression leaves in IR the little-endian word at IMAR, the WAIT_1 cycle decodes it with its address
while it latches R7 as the compute phase left it, and the next WAIT_0 cycle is its meaning, under the cycle's own clock, save,
fetch and halt check. So the word after an unflushed write of R7 still runs, the delay slot (70_reset_and_hazards.md sections 1,
2 and 7, 20_memory.md section 2 for the byte order; D20). -/
def Obligations.FetchedWordIsExecuted : Prop :=
  ∀ s v : State, ReadyWait0 s → exec s.cur.instr s.tick = .next v → v.faulted = none → v.flushPending = false →
    v.bq.head? ≠ some true →
    ∃ t u, step s = .next t ∧ step t = .next u ∧
      t.ir = wordOfBytes (Memory.read s.im s.imar.toNat) (Memory.read s.im (s.imar.toNat + 1)) ∧
      u.cur = { opcode := t.ir, instr := decodeWord t.ir, pending := false, addr := some s.imar } ∧ u.imar = v.reg 7 ∧
      (v.cur.pending = false → u.reg 7 = v.reg 7 + 2 ∧ u.faulted = none) ∧
      (u.faulted = none →
        step u = match exec (decodeWord t.ir) u.tick with
          | .next v => .next (v.finishWait0 Config.params)
          | .fault r => .fault r
          | .refused r => .refused r)

/-- Fetch-phase-0 latches R7 as it is at the start of the cycle, before the commit, and advances it by 2 modulo 2^16; it never
faults, and changes nothing else (70_reset_and_hazards.md section 2, 10_state.md section 2; the wrap modulo 2^16 by D37). -/
def Obligations.FetchAddressLatched : Prop :=
  (∀ s : State, s.fetch0.imar = s.reg 7 ∧ s.fetch0.ictrl = .readWord ∧
    (s.fetch0.reg 7).toNat = ((s.reg 7).toNat + 2) % 65536 ∧ OtherRegs s s.fetch0 7 ∧
    s.fetch0 = { s with x := s.fetch0.x, imar := s.reg 7, ictrl := .readWord }) ∧
  (∀ s : State, ReadyCommit s → ∃ t, step s = .next t ∧ t.imar = s.reg 7 ∧ t.ictrl = .readWord ∧
    (s.prev.pending = false → t.reg 7 = s.reg 7 + 2))

/-- A WAIT_1 cycle with nothing pending: fetch-phase-0, decode with the flush request, the clock, nothing else
(70_reset_and_hazards.md sections 1 and 2; a START cycle is the same with IR preset to the no-op). That the two per-cycle bits
are cleared in this cycle is the model's reading (log 25, from R33 in 10_state.md section 5). -/
def Obligations.DecodeCycle : Prop :=
  ∀ s : State, s.Live → s.prev.pending = false → s.cycleState ≠ .wait0 →
    let w := if s.cycleState = .start then 0x0000#16 else s.ir
    let tag := if s.cycleState = .start then none else s.irTag
    ∃ t, step s = .next t ∧ t.reg 7 = s.reg 7 + 2 ∧ OtherRegs s t 7 ∧
      t = { s with
        x := t.x
        imar := s.reg 7
        ictrl := .readWord
        ir := w
        irTag := tag
        cur := { opcode := w, instr := decodeWord w, pending := false, addr := tag }
        flushPending := s.flushPending || (decodeWord w).requestsFlush
        cycleState := .wait0
        clockCycles := s.clockCycles + 1
        failedThisCycle := false
        zeroFetchedThisCycle := false }

/-- Fetch-phase-1, on the state v the compute phase of any instruction answers: the word is read, one queue entry consumed when
there is one, the indicator cleared, and the word replaced by an untagged NOP_WORD when the indicator or the oldest entry of v asks
for it; the halt check may write R7 and `running`, and with no breakpoint the machine runs on. So the fetch of its own slot obeys
the flush of a MOV or SWAP to R7 and the first decision of a CEX (70_reset_and_hazards.md sections 1, 2 and 3, 44_status_cex.md
section 2; an empty queue by D6, the order by D5). -/
def Obligations.FetchConsumesOneDecision : Prop :=
  ∀ (p : Config.Params) (s v : State), s.Live → s.cycleState = .wait0 → s.imar.getLsbD 0 = false →
    execWith p s.cur.instr s.tick = .next v → v.faulted = none →
    let word := wordOfBytes (Memory.read s.im s.imar.toNat) (Memory.read s.im (s.imar.toNat + 1))
    let suppress := v.flushPending || v.bq.head? == some true
    let fetched : State := { v with
      imbr := word
      ir := if suppress then p.nopWord else word
      irTag := if suppress then none else some s.imar
      bq := v.bq.tail
      flushPending := false
      prev := v.cur
      cycleState := .wait1
      zeroFetchedThisCycle := decide (word = 0x0000#16) }
    (∃ t, s.stepWith p = .next t ∧ OtherRegs v t 7 ∧ t = { fetched with x := t.x, running := t.running }) ∧
    (s.breakpoint = none → p = Config.params → step s = .next fetched)

/-- A fetch from an odd address faults, suppressed or not, after the compute phase of its cycle, whose effects stay
(70_reset_and_hazards.md section 2, 60_exceptions.md section 3; the fault by D23). -/
def Obligations.MisalignedFetchFaults : Prop :=
  ∀ s u : State, s.Live → s.cycleState = .wait0 → s.imar.getLsbD 0 = true → exec s.cur.instr s.tick = .next u →
    u.faulted = none →
    ∃ t, step s = .next t ∧ t.faulted = some (.misalignedFetch s.imar) ∧ (∀ i, t.reg i = u.reg i) ∧ t.flags = u.flags ∧
      t.bq = u.bq ∧ t.failures = u.failures ∧ MemoryAsBefore u t ∧ t.ir = s.ir ∧ step t = .fault (.misalignedFetch s.imar)

/-- A breakpoint match stops the core after the cycle that computed the instruction, with R7 rolled back by BREAKPOINT_ROLLBACK,
which is 4; it comes before the failure halt and the zero-fetch halt under every value of the parameters
(70_reset_and_hazards.md section 4; the tag and the 4 bytes by D27). That the halted machine then stays as it is is the model's
own choice (log 1). -/
def Obligations.BreakpointHalts : Prop :=
  ∀ (p : Config.Params) (s u : State) (a b : Word), s.Live → s.cycleState = .wait0 → s.imar.getLsbD 0 = false →
    s.breakpoint = some b → s.cur.addr = some a → a = b &&& 0xFFFE#16 →
    execWith p s.cur.instr s.tick = .next u → u.faulted = none →
    ∃ t, s.stepWith p = .next t ∧ t.running = false ∧ t.reg 7 = u.reg 7 - p.breakpointRollback ∧ OtherRegs u t 7 ∧
      t.cycleState = .wait1 ∧ t.prev = u.cur ∧ t.stepWith p = .next t ∧
      (p = Config.params → step s = .next t ∧ t.reg 7 = u.reg 7 - 4 ∧ step t = .next t)

/-- The halts of the alternative parameters, when no breakpoint is set: a failure halts with R7 back by 2 under the policy
`halt`; a word 0x0000 read halts with R7 as it is under the zero-fetch variant, a failure halt coming first
(70_reset_and_hazards.md section 4; D18, D30). -/
def Obligations.AlternativeHalts : Prop :=
  ∀ (p : Config.Params) (s u : State), ReadyWait0 s → execWith p s.cur.instr s.tick = .next u → u.faulted = none →
    let failureHalt := p.failurePolicy = .halt ∧ u.failedThisCycle = true
    let zeroHalt := p.haltOnZeroFetch = true ∧ Memory.readWord s.im s.imar = 0x0000#16
    ∃ t, s.stepWith p = .next t ∧ OtherRegs u t 7 ∧
      (failureHalt → t.running = false ∧ t.reg 7 = u.reg 7 - 2) ∧
      (¬ failureHalt → zeroHalt → t.running = false ∧ t.reg 7 = u.reg 7) ∧
      (¬ failureHalt → ¬ zeroHalt → t.running = true ∧ t.reg 7 = u.reg 7)

/-! ## Rules over all instructions and the whole machine -/

/-- The flags an instruction may write are those of its row of the table of R26, and DADD clears N and V (10_state.md section
3; the row of BIT, BIC, BIS by D16). -/
def Obligations.FlagWriters : Prop :=
  ∀ (i : Instr) (s t : State), exec i s = .next t →
    ((mayWrite i).c = false → t.flags.c = s.flags.c) ∧ ((mayWrite i).z = false → t.flags.z = s.flags.z) ∧
    ((mayWrite i).n = false → t.flags.n = s.flags.n) ∧ ((mayWrite i).v = false → t.flags.v = s.flags.v) ∧
    ((mayWrite i).slp = false → t.flags.slp = s.flags.slp) ∧
    (∀ w src dst, i = .dadd w src dst → t.flags.n = false ∧ t.flags.v = false)

/-- Every instruction completes in every state: no meaning refuses, and a model fault is a next state with `faulted` set; no
instruction changes memory, the fetch registers, the breakpoint or the clock in its compute phase (60_exceptions.md sections 1
and 3; the fault state by D23). -/
def Obligations.ComputePhaseFrame : Prop :=
  ∀ (i : Instr) (s : State), ∃ t, exec i s = .next t ∧ t.im = s.im ∧ t.dm = s.dm ∧ t.imar = s.imar ∧ t.imbr = s.imbr ∧
    t.ictrl = s.ictrl ∧ t.ir = s.ir ∧ t.irTag = s.irTag ∧ t.dmbr = s.dmbr ∧ t.cycleState = s.cycleState ∧
    t.running = s.running ∧ t.flushPending = s.flushPending ∧ t.prev = s.prev ∧ t.cur = { s.cur with pending := t.cur.pending } ∧
    t.breakpoint = s.breakpoint ∧ t.startingAddress = s.startingAddress ∧ t.clockCycles = s.clockCycles

/-- The core never writes instruction memory, and a byte of data memory changes only in the commit cycle of a pending store, at
the address it was given (10_state.md section 7, 20_memory.md section 1). -/
def Obligations.OnlyStoresChangeMemory : Prop :=
  ∀ s t : State, step s = .next t →
    t.im = s.im ∧ t.breakpoint = s.breakpoint ∧ t.startingAddress = s.startingAddress ∧
    ∀ a, Memory.read t.dm a ≠ Memory.read s.dm a →
      s.Live ∧ s.cycleState ≠ .wait0 ∧ s.prev.pending = true ∧
      (s.dctrl = .writeWord ∧ (a = s.dmar.toNat ∨ a = s.dmar.toNat + 1) ∨ s.dctrl = .writeByte ∧ a = s.dmar.toNat)

/-- Every cycle of a live machine adds 1 to the clock, the one that halts or faults too; a machine that is not running stays as
it is, which is the model's choice (log 1); a faulted one answers its fault (70_reset_and_hazards.md section 1, D29). -/
def Obligations.ClockCountsCycles : Prop :=
  ∀ s : State,
    (s.Live → ∃ t, step s = .next t ∧ t.clockCycles = s.clockCycles + 1) ∧
    (s.faulted = none → s.running = false → step s = .next s) ∧
    (∀ r, s.faulted = some r → step s = .fault r ∧ s.hostEffect .run = s ∧ (powerOnReset s).faulted = none)

/-- The failure list only grows, by at most one a step, and the new entry is of the instruction in `cur` at this cycle's clock
(10_state.md section 8, 60_exceptions.md sections 2 and 4; the record by D18). -/
def Obligations.FailuresAppendOnly : Prop :=
  ∀ s t : State, step s = .next t →
    t.failures = s.failures ∨
    ∃ r : FailReason, s.cycleState = .wait0 ∧ t.failures = s.failures ++
      [{ reason := r, addr := s.cur.addr, opcode := s.cur.opcode, cycle := s.clockCycles + 1 }]

/-- Nothing reads SLP: two machines that differ in SLP alone step alike, and differ in SLP alone after (10_state.md section 3;
SLP without effect by D28). -/
def Obligations.SleepFlagIsNeverRead : Prop :=
  ∀ (s : State) (b : Bool),
    (∀ t, step s = .next t → ∃ c, step (withSlp s b) = .next (withSlp t c)) ∧
    (∀ r, step s = .fault r → step (withSlp s b) = .fault r)

/-- The bubble queue is first in, first out: after inserts within the capacity into an empty queue, as many removals answer
the entries in order and leave the state as it was (E6, 70_reset_and_hazards.md section 3; the capacity, 32 or another, by D7). -/
def Obligations.BubbleQueueFifo : Prop :=
  (∀ (p : Config.Params) (l : List Bool) (s : State), s.bq = [] → l.length ≤ p.bqCapacity →
    popAll l.length (s.bqInsertAll p l) = (l, s)) ∧
  (∀ s : State, s.bq = [] →
    popAll 2 ((s.bqInsert Config.params true).bqInsert Config.params false) = ([true, false], s))

/-! ## The invariant, reset and the host -/

/-- The invariant holds after power-on reset, under every value of the parameters. -/
def Obligations.ResetInvariant : Prop := (∀ p, Inv p (State.resetWith p)) ∧ Inv Config.params State.reset

/-- Every step keeps the invariant, under every admissible value of the parameters. -/
def Obligations.StepKeepsInvariant : Prop :=
  (∀ s t : State, Inv Config.params s → step s = .next t → Inv Config.params t) ∧
  (∀ (p : Config.Params) (s t : State), p.Admissible → Inv p s → s.stepWith p = .next t → Inv p t)

/-- Every host operation keeps the invariant (70_reset_and_hazards.md section 6). -/
def Obligations.HostKeepsInvariant : Prop :=
  ∀ (p : Config.Params) (op : HostOp) (s t : State), Inv p s → hostStep op s = some t → Inv p t

/-- What power-on reset leaves (10_state.md section 10; the values are the spec's decision D24). -/
def Obligations.ResetValues : Prop :=
  (∀ i, State.reset.reg i = 0) ∧ (∀ a, Memory.read State.reset.im a = 0 ∧ Memory.read State.reset.dm a = 0) ∧
  State.reset.flags = { c := false, z := false, n := false, v := false, slp := false } ∧
  State.reset.cycleState = .start ∧ State.reset.running = false ∧ State.reset.faulted = none ∧ State.reset.bq = [] ∧
  State.reset.flushPending = false ∧ State.reset.cur = Decoded.nop ∧ State.reset.prev = Decoded.nop ∧
  State.reset.ir = 0x0000#16 ∧ State.reset.irTag = none ∧ State.reset.breakpoint = none ∧
  State.reset.clockCycles = 0 ∧ State.reset.failures = [] ∧ Decoded.nop.instr = .bl 0 ∧ Decoded.nop.addr = none

/-- The host's run and restart on a halted machine that has not faulted, and that no host operation moves a running one
(70_reset_and_hazards.md sections 5 and 6; D25, D26, D36). -/
def Obligations.RunAndRestart : Prop :=
  ∀ s : State,
    (s.running = true → ∀ op, hostStep op s = none) ∧
    (s.running = false → s.faulted = none →
      hostStep .run s = some { s with cycleState := .start, running := true } ∧
      ∃ t, hostStep .restart s = some t ∧ t.reg 7 = s.startingAddress ∧ OtherRegs s t 7 ∧
        t = { s with x := t.x, clockCycles := 0, cycleState := .start })

/-- The boot sequence starts the program: after the START no-op slot IR holds the word the image has at the entry point, and
the third cycle decodes it with R7 two words on (70_reset_and_hazards.md sections 5 and 6, R22; the sequence by D24). -/
def Obligations.BootFetchesEntryPoint : Prop :=
  ∀ (imBytes dmBytes : List (Word × Byte)) (start : Word) (bp : Option Word), start.getLsbD 0 = false →
    let s := boot imBytes dmBytes start bp
    let m := Memory.writeBytes [] imBytes
    ∃ t u v, step s = .next t ∧ step t = .next u ∧ step u = .next v ∧
      u.ir = Memory.readWord m start ∧ u.irTag = some start ∧ u.clockCycles = 2 ∧ u.running = true ∧
      v.cur = { opcode := Memory.readWord m start, instr := decodeWord (Memory.readWord m start), pending := false,
                addr := some start } ∧
      v.reg 7 = start + 4 ∧ v.imar = start + 2 ∧ v.cycleState = .wait0 ∧ v.failures = [] ∧ v.bq = []
end

