-- ==== Sys2Proof/Laws/Memory.lean ====
section
/-! SUPPORT. Memory: a read after a write, and that every memory operation keeps the canonical form. -/

namespace Sys2Proof.Machine

theorem read_erase (m : Memory) (a b : Nat) :
    Memory.read (Memory.erase m a) b = if b = a then 0 else Memory.read m b := by
  induction m with
  | nil => simp [Memory.erase, Memory.read]
  | cons c m ih =>
    obtain ⟨k, v⟩ := c
    simp only [Memory.erase] at ih
    by_cases hk : k = a
    · subst hk
      simp only [Memory.erase, List.filter_cons, bne_self_eq_false, Bool.false_eq_true, if_false, ih, Memory.read]
      by_cases hb : b = k
      · simp [hb]
      · simp [hb, Ne.symm hb]
    · simp only [Memory.erase, List.filter_cons, bne_iff_ne, ne_eq, hk, not_false_eq_true, if_true, Memory.read, ih]
      by_cases hb : b = a
      · subst hb
        simp [hk]
      · simp [hb]

theorem read_insert (m : Memory) (a b : Nat) (v : Byte) (hm : ∀ c ∈ m, c.1 ≠ a) :
    Memory.read (Memory.insert m a v) b = if b = a then v else Memory.read m b := by
  induction m with
  | nil => simp [Memory.insert, Memory.read, eq_comm]
  | cons c m ih =>
    obtain ⟨k, u⟩ := c
    have hk : k ≠ a := hm (k, u) (by simp)
    have ih := ih fun c hc => hm c (List.mem_cons_of_mem _ hc)
    simp only [Memory.insert]
    by_cases h : k < a
    · rw [if_pos h]
      simp only [Memory.read, ih]
      by_cases hb : b = a
      · simp [hb, hk]
      · simp [hb]
    · rw [if_neg h]
      by_cases hb : b = a
      · simp [Memory.read, hb]
      · simp [Memory.read, hb, Ne.symm hb]

theorem mem_erase (m : Memory) (a : Nat) (c : Host.Cell) : c ∈ Memory.erase m a ↔ c ∈ m ∧ c.1 ≠ a := by
  simp [Memory.erase]

/-- A read after a write: the byte written at its address, what was there anywhere else. -/
@[simp] theorem read_write (m : Memory) (a b : Nat) (v : Byte) :
    Memory.read (Memory.write m a v) b = if b = a then v else Memory.read m b := by
  by_cases hv : v = 0
  · simp [Memory.write, hv, read_erase]
  · rw [Memory.write, if_neg hv, read_insert _ _ _ _ fun c hc => ((mem_erase m a c).1 hc).2, read_erase]
    by_cases hb : b = a <;> simp [hb]

theorem mem_insert (m : Memory) (a : Nat) (v : Byte) (c : Host.Cell) :
    c ∈ Memory.insert m a v ↔ c = (a, v) ∨ c ∈ m := by
  induction m with
  | nil => simp [Memory.insert]
  | cons d m ih =>
    simp only [Memory.insert]
    by_cases h : d.1 < a
    · simp only [if_pos h, List.mem_cons, ih]
      tauto
    · simp [if_neg h]

theorem wf_nil : Memory.wf [] := ⟨List.Pairwise.nil, fun _ h => absurd h List.not_mem_nil⟩

theorem wf_erase {m : Memory} (h : Memory.wf m) (a : Nat) : Memory.wf (Memory.erase m a) :=
  ⟨List.Pairwise.filter _ h.1, fun c hc => h.2 c ((mem_erase m a c).1 hc).1⟩

theorem wf_insert {m : Memory} (h : Memory.wf m) {a : Nat} {v : Byte} (ha : a < 65536) (hv : v ≠ 0)
    (hm : ∀ c ∈ m, c.1 ≠ a) : Memory.wf (Memory.insert m a v) := by
  refine ⟨?_, ?_⟩
  · induction m with
    | nil => simp [Memory.insert]
    | cons d m ih =>
      obtain ⟨hd, hrest⟩ := List.pairwise_cons.1 h.1
      have hda : d.1 ≠ a := hm d (by simp)
      simp only [Memory.insert]
      by_cases hlt : d.1 < a
      · rw [if_pos hlt]
        refine List.pairwise_cons.2 ⟨fun c hc => ?_, ?_⟩
        · rcases (mem_insert m a v c).1 hc with rfl | hc
          · exact hlt
          · exact hd c hc
        · exact ih ⟨hrest, fun c hc => h.2 c (List.mem_cons_of_mem _ hc)⟩ fun c hc => hm c (List.mem_cons_of_mem _ hc)
      · rw [if_neg hlt]
        have hgt : a < d.1 := by omega
        refine List.pairwise_cons.2 ⟨fun c hc => ?_, h.1⟩
        rcases List.mem_cons.1 hc with rfl | hc
        · exact hgt
        · exact lt_trans hgt (hd c hc)
  · intro c hc
    rcases (mem_insert m a v c).1 hc with rfl | hc
    · exact ⟨hv, ha⟩
    · exact h.2 c hc

/-- A write keeps the canonical form. -/
theorem wf_write {m : Memory} (h : Memory.wf m) {a : Nat} (ha : a < 65536) (v : Byte) :
    Memory.wf (Memory.write m a v) := by
  by_cases hv : v = 0
  · simpa only [Memory.write, hv, if_true] using wf_erase h a
  · rw [Memory.write, if_neg hv]
    exact wf_insert (wf_erase h a) ha hv fun c hc => ((mem_erase m a c).1 hc).2

theorem wf_writeWord {m : Memory} (h : Memory.wf m) (a v : Word) : Memory.wf (Memory.writeWord m a v) :=
  wf_write (wf_write h a.isLt _) (a + 1).isLt _

theorem wf_writeByte {m : Memory} (h : Memory.wf m) (a v : Word) : Memory.wf (Memory.writeByte m a v) :=
  wf_write h a.isLt _

theorem wf_writeBytes {m : Memory} (h : Memory.wf m) (l : List (Word × Byte)) : Memory.wf (Memory.writeBytes m l) := by
  induction l generalizing m with
  | nil => exact h
  | cons c l ih => exact ih (wf_write h c.1.isLt _)

/-- Two canonical memories that read the same are the same list. -/
theorem wf_ext {m n : Memory} (hm : Memory.wf m) (hn : Memory.wf n) (h : ∀ a, Memory.read m a = Memory.read n a) : m = n := by
  have read_mem : ∀ {m : Memory}, Memory.wf m → ∀ a v, v ≠ 0 → (Memory.read m a = v ↔ (a, v) ∈ m) := by
    intro m hm a v hv
    induction m with
    | nil => simpa [Memory.read] using Ne.symm hv
    | cons d m ih =>
      obtain ⟨k, u⟩ := d
      obtain ⟨hd, hrest⟩ := List.pairwise_cons.1 hm.1
      have ih := ih ⟨hrest, fun c hc => hm.2 c (List.mem_cons_of_mem _ hc)⟩
      simp only [Memory.read, List.mem_cons, Prod.mk.injEq]
      by_cases hk : k = a
      · subst hk
        have hnot : (k, v) ∉ m := fun hc => lt_irrefl k (hd (k, v) hc)
        simp only [if_true, true_and, hnot, or_false]
        exact eq_comm
      · simp [hk, Ne.symm hk, ih]
  have inc : ∀ {m n : Memory}, Memory.wf m → Memory.wf n → (∀ a, Memory.read m a = Memory.read n a) → ∀ c ∈ m, c ∈ n := by
    intro m n hm hn h c hc
    have hv := (hm.2 c hc).1
    exact (read_mem hn c.1 c.2 hv).1 ((h c.1).symm.trans ((read_mem hm c.1 c.2 hv).2 hc))
  have perm : m.Perm n :=
    (List.perm_ext_iff_of_nodup (hm.1.imp fun hlt e => by simp [e] at hlt) (hn.1.imp fun hlt e => by simp [e] at hlt)).2
      fun c => ⟨inc hm hn h c, inc hn hm (fun a => (h a).symm) c⟩
  exact perm.eq_of_pairwise (fun a b _ _ h1 h2 => absurd h1 (lt_asymm h2)) hm.1 hn.1

/-- A word written: its low byte at a, its high byte at a + 1, every other byte as it was (20_memory.md R45). -/
theorem read_writeWord (m : Memory) (a v : Word) (b : Nat) :
    Memory.read (Memory.writeWord m a v) b =
      if b = (a + 1).toNat then hi8 v else if b = a.toNat then lo8 v else Memory.read m b := by
  simp [Memory.writeWord]

/-- A byte written: the low byte of the value at a, every other byte as it was (20_memory.md R48). -/
theorem read_writeByte (m : Memory) (a v : Word) (b : Nat) :
    Memory.read (Memory.writeByte m a v) b = if b = a.toNat then lo8 v else Memory.read m b := by
  simp [Memory.writeByte]

theorem wordOfBytes_toNat (lo hi : Byte) : (wordOfBytes lo hi).toNat = lo.toNat + 256 * hi.toNat := by
  have h := Nat.two_pow_add_eq_or_of_lt lo.isLt hi.toNat
  rw [wordOfBytes, BitVec.toNat_append, Nat.shiftLeft_eq, Nat.mul_comm, ← h]
  omega

@[simp] theorem wordOfBytes_lo8_hi8 (v : Word) : wordOfBytes (lo8 v) (hi8 v) = v := by
  apply BitVec.eq_of_toNat_eq
  have := v.isLt
  rw [wordOfBytes_toNat]
  simp only [lo8, hi8, BitVec.extractLsb'_toNat, Nat.shiftRight_eq_div_pow]
  omega

end Sys2Proof.Machine
end

