-- ==== Sys2Proof/Laws/State.lean ====
section
/-! SUPPORT. One lemma a field for each update of the state, all true by rfl: no later proof unfolds a record update. -/

namespace Sys2Proof.Machine

variable (s : State)

/-! ## setReg -/

@[simp] theorem State.setReg_x (i : RegIdx) (v : Word) : (s.setReg i v).x = s.x.set i.toNat v i.isLt := rfl
@[simp] theorem State.setReg_flags (i : RegIdx) (v : Word) : (s.setReg i v).flags = s.flags := rfl
@[simp] theorem State.setReg_imar (i : RegIdx) (v : Word) : (s.setReg i v).imar = s.imar := rfl
@[simp] theorem State.setReg_imbr (i : RegIdx) (v : Word) : (s.setReg i v).imbr = s.imbr := rfl
@[simp] theorem State.setReg_ictrl (i : RegIdx) (v : Word) : (s.setReg i v).ictrl = s.ictrl := rfl
@[simp] theorem State.setReg_ir (i : RegIdx) (v : Word) : (s.setReg i v).ir = s.ir := rfl
@[simp] theorem State.setReg_irTag (i : RegIdx) (v : Word) : (s.setReg i v).irTag = s.irTag := rfl
@[simp] theorem State.setReg_dmar (i : RegIdx) (v : Word) : (s.setReg i v).dmar = s.dmar := rfl
@[simp] theorem State.setReg_dmbr (i : RegIdx) (v : Word) : (s.setReg i v).dmbr = s.dmbr := rfl
@[simp] theorem State.setReg_dctrl (i : RegIdx) (v : Word) : (s.setReg i v).dctrl = s.dctrl := rfl
@[simp] theorem State.setReg_cycleState (i : RegIdx) (v : Word) : (s.setReg i v).cycleState = s.cycleState := rfl
@[simp] theorem State.setReg_running (i : RegIdx) (v : Word) : (s.setReg i v).running = s.running := rfl
@[simp] theorem State.setReg_faulted (i : RegIdx) (v : Word) : (s.setReg i v).faulted = s.faulted := rfl
@[simp] theorem State.setReg_failedThisCycle (i : RegIdx) (v : Word) : (s.setReg i v).failedThisCycle = s.failedThisCycle := rfl
@[simp] theorem State.setReg_zeroFetchedThisCycle (i : RegIdx) (v : Word) : (s.setReg i v).zeroFetchedThisCycle = s.zeroFetchedThisCycle := rfl
@[simp] theorem State.setReg_bq (i : RegIdx) (v : Word) : (s.setReg i v).bq = s.bq := rfl
@[simp] theorem State.setReg_flushPending (i : RegIdx) (v : Word) : (s.setReg i v).flushPending = s.flushPending := rfl
@[simp] theorem State.setReg_cur (i : RegIdx) (v : Word) : (s.setReg i v).cur = s.cur := rfl
@[simp] theorem State.setReg_prev (i : RegIdx) (v : Word) : (s.setReg i v).prev = s.prev := rfl
@[simp] theorem State.setReg_breakpoint (i : RegIdx) (v : Word) : (s.setReg i v).breakpoint = s.breakpoint := rfl
@[simp] theorem State.setReg_startingAddress (i : RegIdx) (v : Word) : (s.setReg i v).startingAddress = s.startingAddress := rfl
@[simp] theorem State.setReg_clockCycles (i : RegIdx) (v : Word) : (s.setReg i v).clockCycles = s.clockCycles := rfl
@[simp] theorem State.setReg_failures (i : RegIdx) (v : Word) : (s.setReg i v).failures = s.failures := rfl
@[simp] theorem State.setReg_im (i : RegIdx) (v : Word) : (s.setReg i v).im = s.im := rfl
@[simp] theorem State.setReg_dm (i : RegIdx) (v : Word) : (s.setReg i v).dm = s.dm := rfl

/-! ## setFlags -/

@[simp] theorem State.setFlags_x (f : Flags) : (s.setFlags f).x = s.x := rfl
@[simp] theorem State.setFlags_flags (f : Flags) : (s.setFlags f).flags = f := rfl
@[simp] theorem State.setFlags_imar (f : Flags) : (s.setFlags f).imar = s.imar := rfl
@[simp] theorem State.setFlags_imbr (f : Flags) : (s.setFlags f).imbr = s.imbr := rfl
@[simp] theorem State.setFlags_ictrl (f : Flags) : (s.setFlags f).ictrl = s.ictrl := rfl
@[simp] theorem State.setFlags_ir (f : Flags) : (s.setFlags f).ir = s.ir := rfl
@[simp] theorem State.setFlags_irTag (f : Flags) : (s.setFlags f).irTag = s.irTag := rfl
@[simp] theorem State.setFlags_dmar (f : Flags) : (s.setFlags f).dmar = s.dmar := rfl
@[simp] theorem State.setFlags_dmbr (f : Flags) : (s.setFlags f).dmbr = s.dmbr := rfl
@[simp] theorem State.setFlags_dctrl (f : Flags) : (s.setFlags f).dctrl = s.dctrl := rfl
@[simp] theorem State.setFlags_cycleState (f : Flags) : (s.setFlags f).cycleState = s.cycleState := rfl
@[simp] theorem State.setFlags_running (f : Flags) : (s.setFlags f).running = s.running := rfl
@[simp] theorem State.setFlags_faulted (f : Flags) : (s.setFlags f).faulted = s.faulted := rfl
@[simp] theorem State.setFlags_failedThisCycle (f : Flags) : (s.setFlags f).failedThisCycle = s.failedThisCycle := rfl
@[simp] theorem State.setFlags_zeroFetchedThisCycle (f : Flags) : (s.setFlags f).zeroFetchedThisCycle = s.zeroFetchedThisCycle := rfl
@[simp] theorem State.setFlags_bq (f : Flags) : (s.setFlags f).bq = s.bq := rfl
@[simp] theorem State.setFlags_flushPending (f : Flags) : (s.setFlags f).flushPending = s.flushPending := rfl
@[simp] theorem State.setFlags_cur (f : Flags) : (s.setFlags f).cur = s.cur := rfl
@[simp] theorem State.setFlags_prev (f : Flags) : (s.setFlags f).prev = s.prev := rfl
@[simp] theorem State.setFlags_breakpoint (f : Flags) : (s.setFlags f).breakpoint = s.breakpoint := rfl
@[simp] theorem State.setFlags_startingAddress (f : Flags) : (s.setFlags f).startingAddress = s.startingAddress := rfl
@[simp] theorem State.setFlags_clockCycles (f : Flags) : (s.setFlags f).clockCycles = s.clockCycles := rfl
@[simp] theorem State.setFlags_failures (f : Flags) : (s.setFlags f).failures = s.failures := rfl
@[simp] theorem State.setFlags_im (f : Flags) : (s.setFlags f).im = s.im := rfl
@[simp] theorem State.setFlags_dm (f : Flags) : (s.setFlags f).dm = s.dm := rfl
@[simp] theorem State.setFlags_reg (f : Flags) (j : RegIdx) : (s.setFlags f).reg j = s.reg j := rfl

/-! ## setBq -/

@[simp] theorem State.setBq_x (q : List Bool) : (s.setBq q).x = s.x := rfl
@[simp] theorem State.setBq_flags (q : List Bool) : (s.setBq q).flags = s.flags := rfl
@[simp] theorem State.setBq_imar (q : List Bool) : (s.setBq q).imar = s.imar := rfl
@[simp] theorem State.setBq_imbr (q : List Bool) : (s.setBq q).imbr = s.imbr := rfl
@[simp] theorem State.setBq_ictrl (q : List Bool) : (s.setBq q).ictrl = s.ictrl := rfl
@[simp] theorem State.setBq_ir (q : List Bool) : (s.setBq q).ir = s.ir := rfl
@[simp] theorem State.setBq_irTag (q : List Bool) : (s.setBq q).irTag = s.irTag := rfl
@[simp] theorem State.setBq_dmar (q : List Bool) : (s.setBq q).dmar = s.dmar := rfl
@[simp] theorem State.setBq_dmbr (q : List Bool) : (s.setBq q).dmbr = s.dmbr := rfl
@[simp] theorem State.setBq_dctrl (q : List Bool) : (s.setBq q).dctrl = s.dctrl := rfl
@[simp] theorem State.setBq_cycleState (q : List Bool) : (s.setBq q).cycleState = s.cycleState := rfl
@[simp] theorem State.setBq_running (q : List Bool) : (s.setBq q).running = s.running := rfl
@[simp] theorem State.setBq_faulted (q : List Bool) : (s.setBq q).faulted = s.faulted := rfl
@[simp] theorem State.setBq_failedThisCycle (q : List Bool) : (s.setBq q).failedThisCycle = s.failedThisCycle := rfl
@[simp] theorem State.setBq_zeroFetchedThisCycle (q : List Bool) : (s.setBq q).zeroFetchedThisCycle = s.zeroFetchedThisCycle := rfl
@[simp] theorem State.setBq_bq (q : List Bool) : (s.setBq q).bq = q := rfl
@[simp] theorem State.setBq_flushPending (q : List Bool) : (s.setBq q).flushPending = s.flushPending := rfl
@[simp] theorem State.setBq_cur (q : List Bool) : (s.setBq q).cur = s.cur := rfl
@[simp] theorem State.setBq_prev (q : List Bool) : (s.setBq q).prev = s.prev := rfl
@[simp] theorem State.setBq_breakpoint (q : List Bool) : (s.setBq q).breakpoint = s.breakpoint := rfl
@[simp] theorem State.setBq_startingAddress (q : List Bool) : (s.setBq q).startingAddress = s.startingAddress := rfl
@[simp] theorem State.setBq_clockCycles (q : List Bool) : (s.setBq q).clockCycles = s.clockCycles := rfl
@[simp] theorem State.setBq_failures (q : List Bool) : (s.setBq q).failures = s.failures := rfl
@[simp] theorem State.setBq_im (q : List Bool) : (s.setBq q).im = s.im := rfl
@[simp] theorem State.setBq_dm (q : List Bool) : (s.setBq q).dm = s.dm := rfl
@[simp] theorem State.setBq_reg (q : List Bool) (j : RegIdx) : (s.setBq q).reg j = s.reg j := rfl

/-! ## setPrev -/

@[simp] theorem State.setPrev_x (d : Decoded) : (s.setPrev d).x = s.x := rfl
@[simp] theorem State.setPrev_flags (d : Decoded) : (s.setPrev d).flags = s.flags := rfl
@[simp] theorem State.setPrev_imar (d : Decoded) : (s.setPrev d).imar = s.imar := rfl
@[simp] theorem State.setPrev_imbr (d : Decoded) : (s.setPrev d).imbr = s.imbr := rfl
@[simp] theorem State.setPrev_ictrl (d : Decoded) : (s.setPrev d).ictrl = s.ictrl := rfl
@[simp] theorem State.setPrev_ir (d : Decoded) : (s.setPrev d).ir = s.ir := rfl
@[simp] theorem State.setPrev_irTag (d : Decoded) : (s.setPrev d).irTag = s.irTag := rfl
@[simp] theorem State.setPrev_dmar (d : Decoded) : (s.setPrev d).dmar = s.dmar := rfl
@[simp] theorem State.setPrev_dmbr (d : Decoded) : (s.setPrev d).dmbr = s.dmbr := rfl
@[simp] theorem State.setPrev_dctrl (d : Decoded) : (s.setPrev d).dctrl = s.dctrl := rfl
@[simp] theorem State.setPrev_cycleState (d : Decoded) : (s.setPrev d).cycleState = s.cycleState := rfl
@[simp] theorem State.setPrev_running (d : Decoded) : (s.setPrev d).running = s.running := rfl
@[simp] theorem State.setPrev_faulted (d : Decoded) : (s.setPrev d).faulted = s.faulted := rfl
@[simp] theorem State.setPrev_failedThisCycle (d : Decoded) : (s.setPrev d).failedThisCycle = s.failedThisCycle := rfl
@[simp] theorem State.setPrev_zeroFetchedThisCycle (d : Decoded) : (s.setPrev d).zeroFetchedThisCycle = s.zeroFetchedThisCycle := rfl
@[simp] theorem State.setPrev_bq (d : Decoded) : (s.setPrev d).bq = s.bq := rfl
@[simp] theorem State.setPrev_flushPending (d : Decoded) : (s.setPrev d).flushPending = s.flushPending := rfl
@[simp] theorem State.setPrev_cur (d : Decoded) : (s.setPrev d).cur = s.cur := rfl
@[simp] theorem State.setPrev_prev (d : Decoded) : (s.setPrev d).prev = d := rfl
@[simp] theorem State.setPrev_breakpoint (d : Decoded) : (s.setPrev d).breakpoint = s.breakpoint := rfl
@[simp] theorem State.setPrev_startingAddress (d : Decoded) : (s.setPrev d).startingAddress = s.startingAddress := rfl
@[simp] theorem State.setPrev_clockCycles (d : Decoded) : (s.setPrev d).clockCycles = s.clockCycles := rfl
@[simp] theorem State.setPrev_failures (d : Decoded) : (s.setPrev d).failures = s.failures := rfl
@[simp] theorem State.setPrev_im (d : Decoded) : (s.setPrev d).im = s.im := rfl
@[simp] theorem State.setPrev_dm (d : Decoded) : (s.setPrev d).dm = s.dm := rfl
@[simp] theorem State.setPrev_reg (d : Decoded) (j : RegIdx) : (s.setPrev d).reg j = s.reg j := rfl

/-! ## setDmbr -/

@[simp] theorem State.setDmbr_x (v : Word) : (s.setDmbr v).x = s.x := rfl
@[simp] theorem State.setDmbr_flags (v : Word) : (s.setDmbr v).flags = s.flags := rfl
@[simp] theorem State.setDmbr_imar (v : Word) : (s.setDmbr v).imar = s.imar := rfl
@[simp] theorem State.setDmbr_imbr (v : Word) : (s.setDmbr v).imbr = s.imbr := rfl
@[simp] theorem State.setDmbr_ictrl (v : Word) : (s.setDmbr v).ictrl = s.ictrl := rfl
@[simp] theorem State.setDmbr_ir (v : Word) : (s.setDmbr v).ir = s.ir := rfl
@[simp] theorem State.setDmbr_irTag (v : Word) : (s.setDmbr v).irTag = s.irTag := rfl
@[simp] theorem State.setDmbr_dmar (v : Word) : (s.setDmbr v).dmar = s.dmar := rfl
@[simp] theorem State.setDmbr_dmbr (v : Word) : (s.setDmbr v).dmbr = v := rfl
@[simp] theorem State.setDmbr_dctrl (v : Word) : (s.setDmbr v).dctrl = s.dctrl := rfl
@[simp] theorem State.setDmbr_cycleState (v : Word) : (s.setDmbr v).cycleState = s.cycleState := rfl
@[simp] theorem State.setDmbr_running (v : Word) : (s.setDmbr v).running = s.running := rfl
@[simp] theorem State.setDmbr_faulted (v : Word) : (s.setDmbr v).faulted = s.faulted := rfl
@[simp] theorem State.setDmbr_failedThisCycle (v : Word) : (s.setDmbr v).failedThisCycle = s.failedThisCycle := rfl
@[simp] theorem State.setDmbr_zeroFetchedThisCycle (v : Word) : (s.setDmbr v).zeroFetchedThisCycle = s.zeroFetchedThisCycle := rfl
@[simp] theorem State.setDmbr_bq (v : Word) : (s.setDmbr v).bq = s.bq := rfl
@[simp] theorem State.setDmbr_flushPending (v : Word) : (s.setDmbr v).flushPending = s.flushPending := rfl
@[simp] theorem State.setDmbr_cur (v : Word) : (s.setDmbr v).cur = s.cur := rfl
@[simp] theorem State.setDmbr_prev (v : Word) : (s.setDmbr v).prev = s.prev := rfl
@[simp] theorem State.setDmbr_breakpoint (v : Word) : (s.setDmbr v).breakpoint = s.breakpoint := rfl
@[simp] theorem State.setDmbr_startingAddress (v : Word) : (s.setDmbr v).startingAddress = s.startingAddress := rfl
@[simp] theorem State.setDmbr_clockCycles (v : Word) : (s.setDmbr v).clockCycles = s.clockCycles := rfl
@[simp] theorem State.setDmbr_failures (v : Word) : (s.setDmbr v).failures = s.failures := rfl
@[simp] theorem State.setDmbr_im (v : Word) : (s.setDmbr v).im = s.im := rfl
@[simp] theorem State.setDmbr_dm (v : Word) : (s.setDmbr v).dm = s.dm := rfl
@[simp] theorem State.setDmbr_reg (v : Word) (j : RegIdx) : (s.setDmbr v).reg j = s.reg j := rfl

/-! ## setDm -/

@[simp] theorem State.setDm_x (m : Memory) : (s.setDm m).x = s.x := rfl
@[simp] theorem State.setDm_flags (m : Memory) : (s.setDm m).flags = s.flags := rfl
@[simp] theorem State.setDm_imar (m : Memory) : (s.setDm m).imar = s.imar := rfl
@[simp] theorem State.setDm_imbr (m : Memory) : (s.setDm m).imbr = s.imbr := rfl
@[simp] theorem State.setDm_ictrl (m : Memory) : (s.setDm m).ictrl = s.ictrl := rfl
@[simp] theorem State.setDm_ir (m : Memory) : (s.setDm m).ir = s.ir := rfl
@[simp] theorem State.setDm_irTag (m : Memory) : (s.setDm m).irTag = s.irTag := rfl
@[simp] theorem State.setDm_dmar (m : Memory) : (s.setDm m).dmar = s.dmar := rfl
@[simp] theorem State.setDm_dmbr (m : Memory) : (s.setDm m).dmbr = s.dmbr := rfl
@[simp] theorem State.setDm_dctrl (m : Memory) : (s.setDm m).dctrl = s.dctrl := rfl
@[simp] theorem State.setDm_cycleState (m : Memory) : (s.setDm m).cycleState = s.cycleState := rfl
@[simp] theorem State.setDm_running (m : Memory) : (s.setDm m).running = s.running := rfl
@[simp] theorem State.setDm_faulted (m : Memory) : (s.setDm m).faulted = s.faulted := rfl
@[simp] theorem State.setDm_failedThisCycle (m : Memory) : (s.setDm m).failedThisCycle = s.failedThisCycle := rfl
@[simp] theorem State.setDm_zeroFetchedThisCycle (m : Memory) : (s.setDm m).zeroFetchedThisCycle = s.zeroFetchedThisCycle := rfl
@[simp] theorem State.setDm_bq (m : Memory) : (s.setDm m).bq = s.bq := rfl
@[simp] theorem State.setDm_flushPending (m : Memory) : (s.setDm m).flushPending = s.flushPending := rfl
@[simp] theorem State.setDm_cur (m : Memory) : (s.setDm m).cur = s.cur := rfl
@[simp] theorem State.setDm_prev (m : Memory) : (s.setDm m).prev = s.prev := rfl
@[simp] theorem State.setDm_breakpoint (m : Memory) : (s.setDm m).breakpoint = s.breakpoint := rfl
@[simp] theorem State.setDm_startingAddress (m : Memory) : (s.setDm m).startingAddress = s.startingAddress := rfl
@[simp] theorem State.setDm_clockCycles (m : Memory) : (s.setDm m).clockCycles = s.clockCycles := rfl
@[simp] theorem State.setDm_failures (m : Memory) : (s.setDm m).failures = s.failures := rfl
@[simp] theorem State.setDm_im (m : Memory) : (s.setDm m).im = s.im := rfl
@[simp] theorem State.setDm_dm (m : Memory) : (s.setDm m).dm = m := rfl
@[simp] theorem State.setDm_reg (m : Memory) (j : RegIdx) : (s.setDm m).reg j = s.reg j := rfl

/-! ## enter -/

@[simp] theorem State.enter_x (c : CycleState) : (s.enter c).x = s.x := rfl
@[simp] theorem State.enter_flags (c : CycleState) : (s.enter c).flags = s.flags := rfl
@[simp] theorem State.enter_imar (c : CycleState) : (s.enter c).imar = s.imar := rfl
@[simp] theorem State.enter_imbr (c : CycleState) : (s.enter c).imbr = s.imbr := rfl
@[simp] theorem State.enter_ictrl (c : CycleState) : (s.enter c).ictrl = s.ictrl := rfl
@[simp] theorem State.enter_ir (c : CycleState) : (s.enter c).ir = s.ir := rfl
@[simp] theorem State.enter_irTag (c : CycleState) : (s.enter c).irTag = s.irTag := rfl
@[simp] theorem State.enter_dmar (c : CycleState) : (s.enter c).dmar = s.dmar := rfl
@[simp] theorem State.enter_dmbr (c : CycleState) : (s.enter c).dmbr = s.dmbr := rfl
@[simp] theorem State.enter_dctrl (c : CycleState) : (s.enter c).dctrl = s.dctrl := rfl
@[simp] theorem State.enter_cycleState (c : CycleState) : (s.enter c).cycleState = c := rfl
@[simp] theorem State.enter_running (c : CycleState) : (s.enter c).running = s.running := rfl
@[simp] theorem State.enter_faulted (c : CycleState) : (s.enter c).faulted = s.faulted := rfl
@[simp] theorem State.enter_failedThisCycle (c : CycleState) : (s.enter c).failedThisCycle = s.failedThisCycle := rfl
@[simp] theorem State.enter_zeroFetchedThisCycle (c : CycleState) : (s.enter c).zeroFetchedThisCycle = s.zeroFetchedThisCycle := rfl
@[simp] theorem State.enter_bq (c : CycleState) : (s.enter c).bq = s.bq := rfl
@[simp] theorem State.enter_flushPending (c : CycleState) : (s.enter c).flushPending = s.flushPending := rfl
@[simp] theorem State.enter_cur (c : CycleState) : (s.enter c).cur = s.cur := rfl
@[simp] theorem State.enter_prev (c : CycleState) : (s.enter c).prev = s.prev := rfl
@[simp] theorem State.enter_breakpoint (c : CycleState) : (s.enter c).breakpoint = s.breakpoint := rfl
@[simp] theorem State.enter_startingAddress (c : CycleState) : (s.enter c).startingAddress = s.startingAddress := rfl
@[simp] theorem State.enter_clockCycles (c : CycleState) : (s.enter c).clockCycles = s.clockCycles := rfl
@[simp] theorem State.enter_failures (c : CycleState) : (s.enter c).failures = s.failures := rfl
@[simp] theorem State.enter_im (c : CycleState) : (s.enter c).im = s.im := rfl
@[simp] theorem State.enter_dm (c : CycleState) : (s.enter c).dm = s.dm := rfl
@[simp] theorem State.enter_reg (c : CycleState) (j : RegIdx) : (s.enter c).reg j = s.reg j := rfl

/-! ## stop -/

@[simp] theorem State.stop_x : s.stop.x = s.x := rfl
@[simp] theorem State.stop_flags : s.stop.flags = s.flags := rfl
@[simp] theorem State.stop_imar : s.stop.imar = s.imar := rfl
@[simp] theorem State.stop_imbr : s.stop.imbr = s.imbr := rfl
@[simp] theorem State.stop_ictrl : s.stop.ictrl = s.ictrl := rfl
@[simp] theorem State.stop_ir : s.stop.ir = s.ir := rfl
@[simp] theorem State.stop_irTag : s.stop.irTag = s.irTag := rfl
@[simp] theorem State.stop_dmar : s.stop.dmar = s.dmar := rfl
@[simp] theorem State.stop_dmbr : s.stop.dmbr = s.dmbr := rfl
@[simp] theorem State.stop_dctrl : s.stop.dctrl = s.dctrl := rfl
@[simp] theorem State.stop_cycleState : s.stop.cycleState = s.cycleState := rfl
@[simp] theorem State.stop_running : s.stop.running = false := rfl
@[simp] theorem State.stop_faulted : s.stop.faulted = s.faulted := rfl
@[simp] theorem State.stop_failedThisCycle : s.stop.failedThisCycle = s.failedThisCycle := rfl
@[simp] theorem State.stop_zeroFetchedThisCycle : s.stop.zeroFetchedThisCycle = s.zeroFetchedThisCycle := rfl
@[simp] theorem State.stop_bq : s.stop.bq = s.bq := rfl
@[simp] theorem State.stop_flushPending : s.stop.flushPending = s.flushPending := rfl
@[simp] theorem State.stop_cur : s.stop.cur = s.cur := rfl
@[simp] theorem State.stop_prev : s.stop.prev = s.prev := rfl
@[simp] theorem State.stop_breakpoint : s.stop.breakpoint = s.breakpoint := rfl
@[simp] theorem State.stop_startingAddress : s.stop.startingAddress = s.startingAddress := rfl
@[simp] theorem State.stop_clockCycles : s.stop.clockCycles = s.clockCycles := rfl
@[simp] theorem State.stop_failures : s.stop.failures = s.failures := rfl
@[simp] theorem State.stop_im : s.stop.im = s.im := rfl
@[simp] theorem State.stop_dm : s.stop.dm = s.dm := rfl
@[simp] theorem State.stop_reg (j : RegIdx) : s.stop.reg j = s.reg j := rfl

/-! ## fail -/

@[simp] theorem State.fail_x (r : FailReason) : (s.fail r).x = s.x := rfl
@[simp] theorem State.fail_flags (r : FailReason) : (s.fail r).flags = s.flags := rfl
@[simp] theorem State.fail_imar (r : FailReason) : (s.fail r).imar = s.imar := rfl
@[simp] theorem State.fail_imbr (r : FailReason) : (s.fail r).imbr = s.imbr := rfl
@[simp] theorem State.fail_ictrl (r : FailReason) : (s.fail r).ictrl = s.ictrl := rfl
@[simp] theorem State.fail_ir (r : FailReason) : (s.fail r).ir = s.ir := rfl
@[simp] theorem State.fail_irTag (r : FailReason) : (s.fail r).irTag = s.irTag := rfl
@[simp] theorem State.fail_dmar (r : FailReason) : (s.fail r).dmar = s.dmar := rfl
@[simp] theorem State.fail_dmbr (r : FailReason) : (s.fail r).dmbr = s.dmbr := rfl
@[simp] theorem State.fail_dctrl (r : FailReason) : (s.fail r).dctrl = s.dctrl := rfl
@[simp] theorem State.fail_cycleState (r : FailReason) : (s.fail r).cycleState = s.cycleState := rfl
@[simp] theorem State.fail_running (r : FailReason) : (s.fail r).running = s.running := rfl
@[simp] theorem State.fail_faulted (r : FailReason) : (s.fail r).faulted = s.faulted := rfl
@[simp] theorem State.fail_failedThisCycle (r : FailReason) : (s.fail r).failedThisCycle = true := rfl
@[simp] theorem State.fail_zeroFetchedThisCycle (r : FailReason) : (s.fail r).zeroFetchedThisCycle = s.zeroFetchedThisCycle := rfl
@[simp] theorem State.fail_bq (r : FailReason) : (s.fail r).bq = s.bq := rfl
@[simp] theorem State.fail_flushPending (r : FailReason) : (s.fail r).flushPending = s.flushPending := rfl
@[simp] theorem State.fail_cur (r : FailReason) : (s.fail r).cur = s.cur := rfl
@[simp] theorem State.fail_prev (r : FailReason) : (s.fail r).prev = s.prev := rfl
@[simp] theorem State.fail_breakpoint (r : FailReason) : (s.fail r).breakpoint = s.breakpoint := rfl
@[simp] theorem State.fail_startingAddress (r : FailReason) : (s.fail r).startingAddress = s.startingAddress := rfl
@[simp] theorem State.fail_clockCycles (r : FailReason) : (s.fail r).clockCycles = s.clockCycles := rfl
@[simp] theorem State.fail_failures (r : FailReason) : (s.fail r).failures = s.failures ++ [{ reason := r, addr := s.cur.addr, opcode := s.cur.opcode, cycle := s.clockCycles }] := rfl
@[simp] theorem State.fail_im (r : FailReason) : (s.fail r).im = s.im := rfl
@[simp] theorem State.fail_dm (r : FailReason) : (s.fail r).dm = s.dm := rfl
@[simp] theorem State.fail_reg (r : FailReason) (j : RegIdx) : (s.fail r).reg j = s.reg j := rfl

/-! ## raise -/

@[simp] theorem State.raise_x (r : Fault) : (s.raise r).x = s.x := rfl
@[simp] theorem State.raise_flags (r : Fault) : (s.raise r).flags = s.flags := rfl
@[simp] theorem State.raise_imar (r : Fault) : (s.raise r).imar = s.imar := rfl
@[simp] theorem State.raise_imbr (r : Fault) : (s.raise r).imbr = s.imbr := rfl
@[simp] theorem State.raise_ictrl (r : Fault) : (s.raise r).ictrl = s.ictrl := rfl
@[simp] theorem State.raise_ir (r : Fault) : (s.raise r).ir = s.ir := rfl
@[simp] theorem State.raise_irTag (r : Fault) : (s.raise r).irTag = s.irTag := rfl
@[simp] theorem State.raise_dmar (r : Fault) : (s.raise r).dmar = s.dmar := rfl
@[simp] theorem State.raise_dmbr (r : Fault) : (s.raise r).dmbr = s.dmbr := rfl
@[simp] theorem State.raise_dctrl (r : Fault) : (s.raise r).dctrl = s.dctrl := rfl
@[simp] theorem State.raise_cycleState (r : Fault) : (s.raise r).cycleState = s.cycleState := rfl
@[simp] theorem State.raise_running (r : Fault) : (s.raise r).running = s.running := rfl
@[simp] theorem State.raise_faulted (r : Fault) : (s.raise r).faulted = some r := rfl
@[simp] theorem State.raise_failedThisCycle (r : Fault) : (s.raise r).failedThisCycle = s.failedThisCycle := rfl
@[simp] theorem State.raise_zeroFetchedThisCycle (r : Fault) : (s.raise r).zeroFetchedThisCycle = s.zeroFetchedThisCycle := rfl
@[simp] theorem State.raise_bq (r : Fault) : (s.raise r).bq = s.bq := rfl
@[simp] theorem State.raise_flushPending (r : Fault) : (s.raise r).flushPending = s.flushPending := rfl
@[simp] theorem State.raise_cur (r : Fault) : (s.raise r).cur = s.cur := rfl
@[simp] theorem State.raise_prev (r : Fault) : (s.raise r).prev = s.prev := rfl
@[simp] theorem State.raise_breakpoint (r : Fault) : (s.raise r).breakpoint = s.breakpoint := rfl
@[simp] theorem State.raise_startingAddress (r : Fault) : (s.raise r).startingAddress = s.startingAddress := rfl
@[simp] theorem State.raise_clockCycles (r : Fault) : (s.raise r).clockCycles = s.clockCycles := rfl
@[simp] theorem State.raise_failures (r : Fault) : (s.raise r).failures = s.failures := rfl
@[simp] theorem State.raise_im (r : Fault) : (s.raise r).im = s.im := rfl
@[simp] theorem State.raise_dm (r : Fault) : (s.raise r).dm = s.dm := rfl
@[simp] theorem State.raise_reg (r : Fault) (j : RegIdx) : (s.raise r).reg j = s.reg j := rfl

/-! ## bqClear -/

@[simp] theorem State.bqClear_x : s.bqClear.x = s.x := rfl
@[simp] theorem State.bqClear_flags : s.bqClear.flags = s.flags := rfl
@[simp] theorem State.bqClear_imar : s.bqClear.imar = s.imar := rfl
@[simp] theorem State.bqClear_imbr : s.bqClear.imbr = s.imbr := rfl
@[simp] theorem State.bqClear_ictrl : s.bqClear.ictrl = s.ictrl := rfl
@[simp] theorem State.bqClear_ir : s.bqClear.ir = s.ir := rfl
@[simp] theorem State.bqClear_irTag : s.bqClear.irTag = s.irTag := rfl
@[simp] theorem State.bqClear_dmar : s.bqClear.dmar = s.dmar := rfl
@[simp] theorem State.bqClear_dmbr : s.bqClear.dmbr = s.dmbr := rfl
@[simp] theorem State.bqClear_dctrl : s.bqClear.dctrl = s.dctrl := rfl
@[simp] theorem State.bqClear_cycleState : s.bqClear.cycleState = s.cycleState := rfl
@[simp] theorem State.bqClear_running : s.bqClear.running = s.running := rfl
@[simp] theorem State.bqClear_faulted : s.bqClear.faulted = s.faulted := rfl
@[simp] theorem State.bqClear_failedThisCycle : s.bqClear.failedThisCycle = s.failedThisCycle := rfl
@[simp] theorem State.bqClear_zeroFetchedThisCycle : s.bqClear.zeroFetchedThisCycle = s.zeroFetchedThisCycle := rfl
@[simp] theorem State.bqClear_bq : s.bqClear.bq = [] := rfl
@[simp] theorem State.bqClear_flushPending : s.bqClear.flushPending = s.flushPending := rfl
@[simp] theorem State.bqClear_cur : s.bqClear.cur = s.cur := rfl
@[simp] theorem State.bqClear_prev : s.bqClear.prev = s.prev := rfl
@[simp] theorem State.bqClear_breakpoint : s.bqClear.breakpoint = s.breakpoint := rfl
@[simp] theorem State.bqClear_startingAddress : s.bqClear.startingAddress = s.startingAddress := rfl
@[simp] theorem State.bqClear_clockCycles : s.bqClear.clockCycles = s.clockCycles := rfl
@[simp] theorem State.bqClear_failures : s.bqClear.failures = s.failures := rfl
@[simp] theorem State.bqClear_im : s.bqClear.im = s.im := rfl
@[simp] theorem State.bqClear_dm : s.bqClear.dm = s.dm := rfl
@[simp] theorem State.bqClear_reg (j : RegIdx) : s.bqClear.reg j = s.reg j := rfl

/-! ## requestAccess -/

@[simp] theorem State.requestAccess_x (c : MemCtrl) (a : Word) : (s.requestAccess c a).x = s.x := rfl
@[simp] theorem State.requestAccess_flags (c : MemCtrl) (a : Word) : (s.requestAccess c a).flags = s.flags := rfl
@[simp] theorem State.requestAccess_imar (c : MemCtrl) (a : Word) : (s.requestAccess c a).imar = s.imar := rfl
@[simp] theorem State.requestAccess_imbr (c : MemCtrl) (a : Word) : (s.requestAccess c a).imbr = s.imbr := rfl
@[simp] theorem State.requestAccess_ictrl (c : MemCtrl) (a : Word) : (s.requestAccess c a).ictrl = s.ictrl := rfl
@[simp] theorem State.requestAccess_ir (c : MemCtrl) (a : Word) : (s.requestAccess c a).ir = s.ir := rfl
@[simp] theorem State.requestAccess_irTag (c : MemCtrl) (a : Word) : (s.requestAccess c a).irTag = s.irTag := rfl
@[simp] theorem State.requestAccess_dmar (c : MemCtrl) (a : Word) : (s.requestAccess c a).dmar = a := rfl
@[simp] theorem State.requestAccess_dmbr (c : MemCtrl) (a : Word) : (s.requestAccess c a).dmbr = s.dmbr := rfl
@[simp] theorem State.requestAccess_dctrl (c : MemCtrl) (a : Word) : (s.requestAccess c a).dctrl = c := rfl
@[simp] theorem State.requestAccess_cycleState (c : MemCtrl) (a : Word) : (s.requestAccess c a).cycleState = s.cycleState := rfl
@[simp] theorem State.requestAccess_running (c : MemCtrl) (a : Word) : (s.requestAccess c a).running = s.running := rfl
@[simp] theorem State.requestAccess_faulted (c : MemCtrl) (a : Word) : (s.requestAccess c a).faulted = s.faulted := rfl
@[simp] theorem State.requestAccess_failedThisCycle (c : MemCtrl) (a : Word) : (s.requestAccess c a).failedThisCycle = s.failedThisCycle := rfl
@[simp] theorem State.requestAccess_zeroFetchedThisCycle (c : MemCtrl) (a : Word) : (s.requestAccess c a).zeroFetchedThisCycle = s.zeroFetchedThisCycle := rfl
@[simp] theorem State.requestAccess_bq (c : MemCtrl) (a : Word) : (s.requestAccess c a).bq = s.bq := rfl
@[simp] theorem State.requestAccess_flushPending (c : MemCtrl) (a : Word) : (s.requestAccess c a).flushPending = s.flushPending := rfl
@[simp] theorem State.requestAccess_cur (c : MemCtrl) (a : Word) : (s.requestAccess c a).cur = { s.cur with pending := true } := rfl
@[simp] theorem State.requestAccess_prev (c : MemCtrl) (a : Word) : (s.requestAccess c a).prev = s.prev := rfl
@[simp] theorem State.requestAccess_breakpoint (c : MemCtrl) (a : Word) : (s.requestAccess c a).breakpoint = s.breakpoint := rfl
@[simp] theorem State.requestAccess_startingAddress (c : MemCtrl) (a : Word) : (s.requestAccess c a).startingAddress = s.startingAddress := rfl
@[simp] theorem State.requestAccess_clockCycles (c : MemCtrl) (a : Word) : (s.requestAccess c a).clockCycles = s.clockCycles := rfl
@[simp] theorem State.requestAccess_failures (c : MemCtrl) (a : Word) : (s.requestAccess c a).failures = s.failures := rfl
@[simp] theorem State.requestAccess_im (c : MemCtrl) (a : Word) : (s.requestAccess c a).im = s.im := rfl
@[simp] theorem State.requestAccess_dm (c : MemCtrl) (a : Word) : (s.requestAccess c a).dm = s.dm := rfl
@[simp] theorem State.requestAccess_reg (c : MemCtrl) (a : Word) (j : RegIdx) : (s.requestAccess c a).reg j = s.reg j := rfl

/-! ## tick -/

@[simp] theorem State.tick_x : s.tick.x = s.x := rfl
@[simp] theorem State.tick_flags : s.tick.flags = s.flags := rfl
@[simp] theorem State.tick_imar : s.tick.imar = s.imar := rfl
@[simp] theorem State.tick_imbr : s.tick.imbr = s.imbr := rfl
@[simp] theorem State.tick_ictrl : s.tick.ictrl = s.ictrl := rfl
@[simp] theorem State.tick_ir : s.tick.ir = s.ir := rfl
@[simp] theorem State.tick_irTag : s.tick.irTag = s.irTag := rfl
@[simp] theorem State.tick_dmar : s.tick.dmar = s.dmar := rfl
@[simp] theorem State.tick_dmbr : s.tick.dmbr = s.dmbr := rfl
@[simp] theorem State.tick_dctrl : s.tick.dctrl = s.dctrl := rfl
@[simp] theorem State.tick_cycleState : s.tick.cycleState = s.cycleState := rfl
@[simp] theorem State.tick_running : s.tick.running = s.running := rfl
@[simp] theorem State.tick_faulted : s.tick.faulted = s.faulted := rfl
@[simp] theorem State.tick_failedThisCycle : s.tick.failedThisCycle = false := rfl
@[simp] theorem State.tick_zeroFetchedThisCycle : s.tick.zeroFetchedThisCycle = false := rfl
@[simp] theorem State.tick_bq : s.tick.bq = s.bq := rfl
@[simp] theorem State.tick_flushPending : s.tick.flushPending = s.flushPending := rfl
@[simp] theorem State.tick_cur : s.tick.cur = s.cur := rfl
@[simp] theorem State.tick_prev : s.tick.prev = s.prev := rfl
@[simp] theorem State.tick_breakpoint : s.tick.breakpoint = s.breakpoint := rfl
@[simp] theorem State.tick_startingAddress : s.tick.startingAddress = s.startingAddress := rfl
@[simp] theorem State.tick_clockCycles : s.tick.clockCycles = s.clockCycles + 1 := rfl
@[simp] theorem State.tick_failures : s.tick.failures = s.failures := rfl
@[simp] theorem State.tick_im : s.tick.im = s.im := rfl
@[simp] theorem State.tick_dm : s.tick.dm = s.dm := rfl
@[simp] theorem State.tick_reg (j : RegIdx) : s.tick.reg j = s.reg j := rfl

/-- MISALIGNED_POLICY has one value, the fault (R50, R51, D23). -/
@[simp] theorem State.misaligned_eq (p : Config.Params) (r : Fault) : s.misaligned p r = s.raise r := rfl

/-! ## startStage -/

@[simp] theorem State.startStage_x (p : Config.Params) : (s.startStage p).x = s.x := rfl
@[simp] theorem State.startStage_flags (p : Config.Params) : (s.startStage p).flags = s.flags := rfl
@[simp] theorem State.startStage_imar (p : Config.Params) : (s.startStage p).imar = s.imar := rfl
@[simp] theorem State.startStage_imbr (p : Config.Params) : (s.startStage p).imbr = s.imbr := rfl
@[simp] theorem State.startStage_ictrl (p : Config.Params) : (s.startStage p).ictrl = s.ictrl := rfl
@[simp] theorem State.startStage_ir (p : Config.Params) : (s.startStage p).ir = p.nopWord := rfl
@[simp] theorem State.startStage_irTag (p : Config.Params) : (s.startStage p).irTag = none := rfl
@[simp] theorem State.startStage_dmar (p : Config.Params) : (s.startStage p).dmar = s.dmar := rfl
@[simp] theorem State.startStage_dmbr (p : Config.Params) : (s.startStage p).dmbr = s.dmbr := rfl
@[simp] theorem State.startStage_dctrl (p : Config.Params) : (s.startStage p).dctrl = s.dctrl := rfl
@[simp] theorem State.startStage_cycleState (p : Config.Params) : (s.startStage p).cycleState = .wait1 := rfl
@[simp] theorem State.startStage_running (p : Config.Params) : (s.startStage p).running = s.running := rfl
@[simp] theorem State.startStage_faulted (p : Config.Params) : (s.startStage p).faulted = s.faulted := rfl
@[simp] theorem State.startStage_failedThisCycle (p : Config.Params) : (s.startStage p).failedThisCycle = s.failedThisCycle := rfl
@[simp] theorem State.startStage_zeroFetchedThisCycle (p : Config.Params) : (s.startStage p).zeroFetchedThisCycle = s.zeroFetchedThisCycle := rfl
@[simp] theorem State.startStage_bq (p : Config.Params) : (s.startStage p).bq = s.bq := rfl
@[simp] theorem State.startStage_flushPending (p : Config.Params) : (s.startStage p).flushPending = s.flushPending := rfl
@[simp] theorem State.startStage_cur (p : Config.Params) : (s.startStage p).cur = s.cur := rfl
@[simp] theorem State.startStage_prev (p : Config.Params) : (s.startStage p).prev = s.prev := rfl
@[simp] theorem State.startStage_breakpoint (p : Config.Params) : (s.startStage p).breakpoint = s.breakpoint := rfl
@[simp] theorem State.startStage_startingAddress (p : Config.Params) : (s.startStage p).startingAddress = s.startingAddress := rfl
@[simp] theorem State.startStage_clockCycles (p : Config.Params) : (s.startStage p).clockCycles = s.clockCycles := rfl
@[simp] theorem State.startStage_failures (p : Config.Params) : (s.startStage p).failures = s.failures := rfl
@[simp] theorem State.startStage_im (p : Config.Params) : (s.startStage p).im = s.im := rfl
@[simp] theorem State.startStage_dm (p : Config.Params) : (s.startStage p).dm = s.dm := rfl
@[simp] theorem State.startStage_reg (p : Config.Params) (j : RegIdx) : (s.startStage p).reg j = s.reg j := rfl

/-! ## latchFetch -/

@[simp] theorem State.latchFetch_x (a : Word) : (s.latchFetch a).x = s.x := rfl
@[simp] theorem State.latchFetch_flags (a : Word) : (s.latchFetch a).flags = s.flags := rfl
@[simp] theorem State.latchFetch_imar (a : Word) : (s.latchFetch a).imar = a := rfl
@[simp] theorem State.latchFetch_imbr (a : Word) : (s.latchFetch a).imbr = s.imbr := rfl
@[simp] theorem State.latchFetch_ictrl (a : Word) : (s.latchFetch a).ictrl = .readWord := rfl
@[simp] theorem State.latchFetch_ir (a : Word) : (s.latchFetch a).ir = s.ir := rfl
@[simp] theorem State.latchFetch_irTag (a : Word) : (s.latchFetch a).irTag = s.irTag := rfl
@[simp] theorem State.latchFetch_dmar (a : Word) : (s.latchFetch a).dmar = s.dmar := rfl
@[simp] theorem State.latchFetch_dmbr (a : Word) : (s.latchFetch a).dmbr = s.dmbr := rfl
@[simp] theorem State.latchFetch_dctrl (a : Word) : (s.latchFetch a).dctrl = s.dctrl := rfl
@[simp] theorem State.latchFetch_cycleState (a : Word) : (s.latchFetch a).cycleState = s.cycleState := rfl
@[simp] theorem State.latchFetch_running (a : Word) : (s.latchFetch a).running = s.running := rfl
@[simp] theorem State.latchFetch_faulted (a : Word) : (s.latchFetch a).faulted = s.faulted := rfl
@[simp] theorem State.latchFetch_failedThisCycle (a : Word) : (s.latchFetch a).failedThisCycle = s.failedThisCycle := rfl
@[simp] theorem State.latchFetch_zeroFetchedThisCycle (a : Word) : (s.latchFetch a).zeroFetchedThisCycle = s.zeroFetchedThisCycle := rfl
@[simp] theorem State.latchFetch_bq (a : Word) : (s.latchFetch a).bq = s.bq := rfl
@[simp] theorem State.latchFetch_flushPending (a : Word) : (s.latchFetch a).flushPending = s.flushPending := rfl
@[simp] theorem State.latchFetch_cur (a : Word) : (s.latchFetch a).cur = s.cur := rfl
@[simp] theorem State.latchFetch_prev (a : Word) : (s.latchFetch a).prev = s.prev := rfl
@[simp] theorem State.latchFetch_breakpoint (a : Word) : (s.latchFetch a).breakpoint = s.breakpoint := rfl
@[simp] theorem State.latchFetch_startingAddress (a : Word) : (s.latchFetch a).startingAddress = s.startingAddress := rfl
@[simp] theorem State.latchFetch_clockCycles (a : Word) : (s.latchFetch a).clockCycles = s.clockCycles := rfl
@[simp] theorem State.latchFetch_failures (a : Word) : (s.latchFetch a).failures = s.failures := rfl
@[simp] theorem State.latchFetch_im (a : Word) : (s.latchFetch a).im = s.im := rfl
@[simp] theorem State.latchFetch_dm (a : Word) : (s.latchFetch a).dm = s.dm := rfl
@[simp] theorem State.latchFetch_reg (a : Word) (j : RegIdx) : (s.latchFetch a).reg j = s.reg j := rfl

/-! ## decodeStage -/

@[simp] theorem State.decodeStage_x : s.decodeStage.x = s.x := rfl
@[simp] theorem State.decodeStage_flags : s.decodeStage.flags = s.flags := rfl
@[simp] theorem State.decodeStage_imar : s.decodeStage.imar = s.imar := rfl
@[simp] theorem State.decodeStage_imbr : s.decodeStage.imbr = s.imbr := rfl
@[simp] theorem State.decodeStage_ictrl : s.decodeStage.ictrl = s.ictrl := rfl
@[simp] theorem State.decodeStage_ir : s.decodeStage.ir = s.ir := rfl
@[simp] theorem State.decodeStage_irTag : s.decodeStage.irTag = s.irTag := rfl
@[simp] theorem State.decodeStage_dmar : s.decodeStage.dmar = s.dmar := rfl
@[simp] theorem State.decodeStage_dmbr : s.decodeStage.dmbr = s.dmbr := rfl
@[simp] theorem State.decodeStage_dctrl : s.decodeStage.dctrl = s.dctrl := rfl
@[simp] theorem State.decodeStage_cycleState : s.decodeStage.cycleState = s.cycleState := rfl
@[simp] theorem State.decodeStage_running : s.decodeStage.running = s.running := rfl
@[simp] theorem State.decodeStage_faulted : s.decodeStage.faulted = s.faulted := rfl
@[simp] theorem State.decodeStage_failedThisCycle : s.decodeStage.failedThisCycle = s.failedThisCycle := rfl
@[simp] theorem State.decodeStage_zeroFetchedThisCycle : s.decodeStage.zeroFetchedThisCycle = s.zeroFetchedThisCycle := rfl
@[simp] theorem State.decodeStage_bq : s.decodeStage.bq = s.bq := rfl
@[simp] theorem State.decodeStage_flushPending : s.decodeStage.flushPending = (s.flushPending || (decodeWord s.ir).requestsFlush) := rfl
@[simp] theorem State.decodeStage_cur : s.decodeStage.cur = { opcode := s.ir, instr := decodeWord s.ir, pending := false, addr := s.irTag } := rfl
@[simp] theorem State.decodeStage_prev : s.decodeStage.prev = s.prev := rfl
@[simp] theorem State.decodeStage_breakpoint : s.decodeStage.breakpoint = s.breakpoint := rfl
@[simp] theorem State.decodeStage_startingAddress : s.decodeStage.startingAddress = s.startingAddress := rfl
@[simp] theorem State.decodeStage_clockCycles : s.decodeStage.clockCycles = s.clockCycles := rfl
@[simp] theorem State.decodeStage_failures : s.decodeStage.failures = s.failures := rfl
@[simp] theorem State.decodeStage_im : s.decodeStage.im = s.im := rfl
@[simp] theorem State.decodeStage_dm : s.decodeStage.dm = s.dm := rfl
@[simp] theorem State.decodeStage_reg (j : RegIdx) : s.decodeStage.reg j = s.reg j := rfl

/-! ## deliver -/

@[simp] theorem State.deliver_x (p : Config.Params) (w : Word) (b : Bool) : (s.deliver p w b).x = s.x := rfl
@[simp] theorem State.deliver_flags (p : Config.Params) (w : Word) (b : Bool) : (s.deliver p w b).flags = s.flags := rfl
@[simp] theorem State.deliver_imar (p : Config.Params) (w : Word) (b : Bool) : (s.deliver p w b).imar = s.imar := rfl
@[simp] theorem State.deliver_imbr (p : Config.Params) (w : Word) (b : Bool) : (s.deliver p w b).imbr = w := rfl
@[simp] theorem State.deliver_ictrl (p : Config.Params) (w : Word) (b : Bool) : (s.deliver p w b).ictrl = s.ictrl := rfl
@[simp] theorem State.deliver_ir (p : Config.Params) (w : Word) (b : Bool) : (s.deliver p w b).ir = (if b then p.nopWord else w) := rfl
@[simp] theorem State.deliver_irTag (p : Config.Params) (w : Word) (b : Bool) : (s.deliver p w b).irTag = (if b then none else some s.imar) := rfl
@[simp] theorem State.deliver_dmar (p : Config.Params) (w : Word) (b : Bool) : (s.deliver p w b).dmar = s.dmar := rfl
@[simp] theorem State.deliver_dmbr (p : Config.Params) (w : Word) (b : Bool) : (s.deliver p w b).dmbr = s.dmbr := rfl
@[simp] theorem State.deliver_dctrl (p : Config.Params) (w : Word) (b : Bool) : (s.deliver p w b).dctrl = s.dctrl := rfl
@[simp] theorem State.deliver_cycleState (p : Config.Params) (w : Word) (b : Bool) : (s.deliver p w b).cycleState = s.cycleState := rfl
@[simp] theorem State.deliver_running (p : Config.Params) (w : Word) (b : Bool) : (s.deliver p w b).running = s.running := rfl
@[simp] theorem State.deliver_faulted (p : Config.Params) (w : Word) (b : Bool) : (s.deliver p w b).faulted = s.faulted := rfl
@[simp] theorem State.deliver_failedThisCycle (p : Config.Params) (w : Word) (b : Bool) : (s.deliver p w b).failedThisCycle = s.failedThisCycle := rfl
@[simp] theorem State.deliver_zeroFetchedThisCycle (p : Config.Params) (w : Word) (b : Bool) : (s.deliver p w b).zeroFetchedThisCycle = (w == 0) := rfl
@[simp] theorem State.deliver_bq (p : Config.Params) (w : Word) (b : Bool) : (s.deliver p w b).bq = s.bq := rfl
@[simp] theorem State.deliver_flushPending (p : Config.Params) (w : Word) (b : Bool) : (s.deliver p w b).flushPending = false := rfl
@[simp] theorem State.deliver_cur (p : Config.Params) (w : Word) (b : Bool) : (s.deliver p w b).cur = s.cur := rfl
@[simp] theorem State.deliver_prev (p : Config.Params) (w : Word) (b : Bool) : (s.deliver p w b).prev = s.prev := rfl
@[simp] theorem State.deliver_breakpoint (p : Config.Params) (w : Word) (b : Bool) : (s.deliver p w b).breakpoint = s.breakpoint := rfl
@[simp] theorem State.deliver_startingAddress (p : Config.Params) (w : Word) (b : Bool) : (s.deliver p w b).startingAddress = s.startingAddress := rfl
@[simp] theorem State.deliver_clockCycles (p : Config.Params) (w : Word) (b : Bool) : (s.deliver p w b).clockCycles = s.clockCycles := rfl
@[simp] theorem State.deliver_failures (p : Config.Params) (w : Word) (b : Bool) : (s.deliver p w b).failures = s.failures := rfl
@[simp] theorem State.deliver_im (p : Config.Params) (w : Word) (b : Bool) : (s.deliver p w b).im = s.im := rfl
@[simp] theorem State.deliver_dm (p : Config.Params) (w : Word) (b : Bool) : (s.deliver p w b).dm = s.dm := rfl
@[simp] theorem State.deliver_reg (p : Config.Params) (w : Word) (b : Bool) (j : RegIdx) : (s.deliver p w b).reg j = s.reg j := rfl

/-! ## Replacing twice, and replacing with what is there -/

@[simp] theorem State.setBq_setBq (q r : List Bool) : (s.setBq q).setBq r = s.setBq r := rfl
@[simp] theorem State.setBq_self : s.setBq s.bq = s := rfl
@[simp] theorem State.setPrev_setPrev (d e : Decoded) : (s.setPrev d).setPrev e = s.setPrev e := rfl
@[simp] theorem State.setPrev_self : s.setPrev s.prev = s := rfl
@[simp] theorem State.setFlags_setFlags (f g : Flags) : (s.setFlags f).setFlags g = s.setFlags g := rfl
@[simp] theorem State.setFlags_self : s.setFlags s.flags = s := rfl
@[simp] theorem State.enter_enter (c d : CycleState) : (s.enter c).enter d = s.enter d := rfl

end Sys2Proof.Machine
end

