-- ==== Sys2Proof/Laws/Registers.lean ====
section
/-! SUPPORT. Register reads after writes, and the operand forms. -/

namespace Sys2Proof.Machine

@[simp] theorem reg_setReg (s : State) (i j : RegIdx) (v : Word) :
    (s.setReg i v).reg j = if j = i then v else s.reg j := by
  simp only [State.reg, State.setReg, Vector.getElem_set]
  by_cases h : j = i
  · simp [h]
  · have : ¬ i.toNat = j.toNat := fun e => h (BitVec.eq_of_toNat_eq e.symm)
    simp [h, this]

/-- Two states whose registers read the same have the same register file. -/
theorem x_ext {s t : State} (h : ∀ i, s.reg i = t.reg i) : s.x = t.x := by
  apply Vector.ext
  intro k hk
  have := h (BitVec.ofNat 3 k)
  simpa [State.reg, Nat.mod_eq_of_lt hk] using this

/-- Writing a register with what it holds changes nothing. -/
@[simp] theorem setReg_self (s : State) (i : RegIdx) : s.setReg i (s.reg i) = s := by
  have h : (s.setReg i (s.reg i)).x = s.x := x_ext fun j => by by_cases h : j = i <;> simp [h]
  exact State.ext h rfl rfl rfl rfl rfl rfl rfl rfl rfl rfl rfl rfl rfl rfl rfl rfl rfl rfl rfl rfl rfl rfl rfl rfl

/-- The value a write of width w leaves in a register that held `old` (10_state.md R19). -/
def merge (w : Width) (old v : Word) : Word :=
  match w with
  | .word => v
  | .byte => (old &&& 0xFF00#16) ||| (v &&& 0x00FF#16)

/-- A write of either width is one register write. -/
theorem writeW_eq (s : State) (w : Width) (i : RegIdx) (v : Word) :
    s.writeW w i v = s.setReg i (merge w (s.reg i) v) := by
  cases w <;> rfl

/-- Every register after a write of either width. -/
@[simp] theorem writeW_reg (s : State) (w : Width) (i j : RegIdx) (v : Word) :
    (s.writeW w i v).reg j = if j = i then merge w (s.reg i) v else s.reg j := by
  simp [writeW_eq]

@[simp] theorem merge_word (old v : Word) : merge .word old v = v := rfl

/-- The bits of a merged register: the low w bits from the value, the rest from the old register. -/
theorem merge_getLsbD (w : Width) (old v : Word) (k : Nat) :
    (merge w old v).getLsbD k = if k < bits w then v.getLsbD k else (old.getLsbD k && decide (k < 16)) := by
  rcases Nat.lt_or_ge k 16 with hk | hk
  · cases w with
    | word => simp [merge, bits, hk]
    | byte =>
      simp only [merge, bits, BitVec.getLsbD_or, BitVec.getLsbD_and]
      interval_cases k <;> simp
  · have h8 : ¬ k < bits w := by cases w <;> simp [bits] <;> omega
    simp [h8, BitVec.getLsbD_of_ge _ _ hk]

/-- v mod 2^w, as a number. -/
theorem trunc_toNat (w : Width) (v : Word) : (trunc w v).toNat = v.toNat % 2 ^ bits w := by
  cases w
  · exact (Nat.mod_eq_of_lt v.isLt).symm
  · simp only [trunc, bits, BitVec.toNat_and, BitVec.toNat_ofNat]
    exact Nat.and_two_pow_sub_one_eq_mod v.toNat 8

/-- The merged register, as a number. -/
theorem merge_toNat (w : Width) (old v : Word) :
    (merge w old v).toNat = old.toNat / 2 ^ bits w * 2 ^ bits w + v.toNat % 2 ^ bits w := by
  cases w
  · have h1 := old.isLt
    have h2 := v.isLt
    simp only [merge, bits]
    omega
  · have hd : (old &&& 0xFF00#16) &&& (v &&& 0x00FF#16) = 0#16 := by
      ext k hk
      interval_cases k <;> simp
    have e : merge .byte old v = (old &&& 0xFF00#16) + (v &&& 0x00FF#16) := by
      simp only [merge]
      exact (BitVec.add_eq_or_of_and_eq_zero _ _ hd).symm
    have a1 : (v &&& 0x00FF#16).toNat = v.toNat % 256 := trunc_toNat .byte v
    have a2 : (old &&& 0xFF00#16).toNat = old.toNat / 256 * 256 := by
      have : old &&& 0xFF00#16 = (old >>> 8) <<< 8 := by
        ext k hk
        interval_cases k <;> simp
      rw [this]
      have := old.isLt
      simp only [BitVec.toNat_shiftLeft, BitVec.toNat_ushiftRight, Nat.shiftRight_eq_div_pow, Nat.shiftLeft_eq]
      omega
    rw [e, BitVec.toNat_add, a1, a2]
    have := old.isLt
    simp only [bits]
    omega

end Sys2Proof.Machine
end

