-- ==== Sys2Proof/Laws/Queue.lean ====
section
/-! SUPPORT. What the bubble-queue operations can do, said once (spec/70_reset_and_hazards.md R187 to R190). -/

namespace Sys2Proof.Machine

/-- Inserting entries changes the queue and, if one finds it full, the fault; nothing else. -/
theorem bqInsertAll_frame (p : Config.Params) (l : List Bool) (s : State) :
    s.bqInsertAll p l = { s with bq := (s.bqInsertAll p l).bq, faulted := (s.bqInsertAll p l).faulted } := by
  induction l generalizing s with
  | nil => rfl
  | cons b l ih =>
    simp only [State.bqInsertAll]
    split
    · rfl
    · exact ih (s.setBq (s.bq ++ [b]))

/-- With room for all of them, the entries are appended in order (R187). -/
theorem bqInsertAll_room (p : Config.Params) (l : List Bool) (s : State) (h : s.bq.length + l.length ≤ p.bqCapacity) :
    s.bqInsertAll p l = s.setBq (s.bq ++ l) := by
  induction l generalizing s with
  | nil => simp [State.bqInsertAll]
  | cons b l ih =>
    have hne : ¬ s.bq.length = p.bqCapacity := by simp at h; omega
    simp only [State.bqInsertAll, if_neg hne]
    rw [ih]
    · simp
    · simp at h ⊢
      omega

/-- Without room, the queue is filled up and the fault raised (R187; 60 R166). -/
theorem bqInsertAll_full (p : Config.Params) (l : List Bool) (s : State) (h : s.bq.length ≤ p.bqCapacity)
    (hf : p.bqCapacity < s.bq.length + l.length) :
    s.bqInsertAll p l = (s.setBq (s.bq ++ l.take (p.bqCapacity - s.bq.length))).raise .bqOverflow := by
  induction l generalizing s with
  | nil => simp at hf; omega
  | cons b l ih =>
    simp only [State.bqInsertAll]
    split
    · rename_i e
      simp [State.raise, e]
    · rename_i e
      rw [ih _ (by simp; omega) (by simp at hf ⊢; omega)]
      have : p.bqCapacity - s.bq.length = p.bqCapacity - (s.bq.length + 1) + 1 := by omega
      simp [this]

/-- The queue never grows past its capacity. -/
theorem bqInsertAll_length (p : Config.Params) (l : List Bool) (s : State) (h : s.bq.length ≤ p.bqCapacity) :
    (s.bqInsertAll p l).bq.length ≤ p.bqCapacity := by
  rcases Nat.lt_or_ge p.bqCapacity (s.bq.length + l.length) with hf | hr
  · rw [bqInsertAll_full p l s h hf]
    simp
    omega
  · rw [bqInsertAll_room p l s hr]
    simpa using hr

/-- The flush of a PC write leaves exactly one flush entry and changes nothing else (43 R120; 46 R148). -/
@[simp] theorem flushQueue_eq (s : State) : s.flushQueue = s.setBq [true] := by
  rw [State.flushQueue, State.bqInsert, bqInsertAll_room _ _ _ (by simp [State.bqClear, Config.params])]
  rfl

/-- The flush of a PC write does the same under every capacity that holds an entry (R187, R189). -/
theorem bqClear_insert (p : Config.Params) (s : State) (h : p.bqCapacity ≠ 0) :
    s.bqClear.bqInsert p true = s.flushQueue := by
  rw [flushQueue_eq, State.bqInsert, bqInsertAll_room _ _ _ (by simp [State.bqClear]; omega)]
  rfl

theorem flushQueue_reg (s : State) (i : RegIdx) : s.flushQueue.reg i = s.reg i := by
  rw [flushQueue_eq]
  rfl

theorem flushQueue_bq (s : State) : s.flushQueue.bq = [true] := by
  rw [flushQueue_eq]
  rfl

/-- A taken branch: the target into R7, one flush entry, nothing else (46 R148). -/
theorem take_eq (s : State) (target : Word) : s.take target = (s.setReg pcIdx target).setBq [true] := by
  simp [State.take]

/-- The flag `remove` answers is the oldest entry, or `false` on an empty queue (R185, R188). -/
theorem bqRemove_fst (s : State) : s.bqRemove.1 = (s.bq.head? == some true) := by
  unfold State.bqRemove
  split <;> rename_i h
  · simp [h]
  · rename_i b bs
    cases b <;> simp [h]

/-- `remove` drops the oldest entry, if there is one (R185, R188). -/
@[simp] theorem bqRemove_snd (s : State) : s.bqRemove.2 = s.setBq s.bq.tail := by
  unfold State.bqRemove
  split <;> rename_i h
  · rw [h, List.tail_nil, ← h, State.setBq_self]
  · rw [h, List.tail_cons]

end Sys2Proof.Machine
end

