-- ==== Sys2Proof/Laws/Cycle.lean ====
section
/-! SUPPORT. What each stage of a cycle can do, said once (spec/45_load_store.md R140; 70_reset_and_hazards.md R178 to R194). -/

namespace Sys2Proof.Machine

/-! ## The step -/

theorem stepWith_live (p : Config.Params) (s : State) (h : s.running = true ∧ s.faulted = none) :
    s.stepWith p = s.cycle p := by
  simp [State.stepWith, h.1, h.2]

theorem stepWith_idle (p : Config.Params) (s : State) (hr : s.running = false) (hf : s.faulted = none) :
    s.stepWith p = .next s := by
  simp [State.stepWith, hr, hf]

theorem stepWith_faulted (p : Config.Params) (s : State) (r : Fault) (h : s.faulted = some r) : s.stepWith p = .fault r := by
  simp [State.stepWith, h]

theorem step_live (s : State) (h : s.running = true ∧ s.faulted = none) : step s = s.cycle Config.params :=
  stepWith_live _ s h

theorem step_idle (s : State) (hr : s.running = false) (hf : s.faulted = none) : step s = .next s :=
  stepWith_idle _ s hr hf

theorem step_faulted (s : State) (r : Fault) (h : s.faulted = some r) : step s = .fault r :=
  stepWith_faulted _ s r h

theorem cycle_wait1 (s : State) (p : Config.Params) (h : s.cycleState = .wait1) : s.cycle p = .next (s.tick.wait1 p) := by
  simp [State.cycle, h]

theorem cycle_start (s : State) (p : Config.Params) (h : s.cycleState = .start) :
    s.cycle p = .next ((s.tick.startStage p).wait1 p) := by
  simp [State.cycle, h]

theorem cycle_wait0 (s : State) (p : Config.Params) (h : s.cycleState = .wait0) : s.cycle p = s.tick.wait0 p := by
  simp [State.cycle, h]

/-- A START or WAIT_1 cycle is the WAIT_1 stage on the state as it is, but for the no-op START presets (R178, R179). -/
theorem stepWith_wait1 (p : Config.Params) (s : State) (h : s.running = true ∧ s.faulted = none)
    (hc : s.cycleState ≠ .wait0) :
    ∃ u : State, s.stepWith p = .next (u.wait1 p) ∧ u = { s.tick with
      ir := if s.cycleState = .start then p.nopWord else s.ir
      irTag := if s.cycleState = .start then none else s.irTag
      cycleState := .wait1 } := by
  rw [stepWith_live p s h]
  rcases hs : s.cycleState with _ | _ | _
  · exact ⟨_, cycle_start _ _ hs, rfl⟩
  · exact absurd hs hc
  · refine ⟨_, cycle_wait1 _ _ hs, ?_⟩
    rw [if_neg CycleState.noConfusion, if_neg CycleState.noConfusion, ← hs]
    rfl

/-- Under the parameters the spec decides the compute phase is `exec`. -/
@[simp] theorem execWith_params (i : Instr) (s : State) : execWith Config.params i s = exec i s := by
  cases i <;> rfl

/-- A compute phase other than that of CEX reads no parameter. -/
theorem execWith_of_not_cex (p : Config.Params) (i : Instr) (s : State) (h : ∀ c tc fc, i ≠ .cex c tc fc) :
    execWith p i s = exec i s := by
  cases i
  case cex => exact absurd rfl (h _ _ _)
  all_goals rfl

/-- A WAIT_0 cycle after a compute phase that answers `t`. -/
theorem wait0_next {s t : State} (p : Config.Params) (h : execWith p s.cur.instr s = .next t) :
    s.wait0 p = .next (t.finishWait0 p) := by
  simp [State.wait0, h]

/-! ## Fetch-phase-0 and decode -/

@[simp] theorem fetch0_reg (s : State) (i : RegIdx) :
    s.fetch0.reg i = if i = pcIdx then s.reg pcIdx + 2 else s.reg i := by
  simp [State.fetch0]

/-- Fetch-phase-0 changes R7, IMAR and ICTRL (R184). -/
theorem fetch0_frame (s : State) : s.fetch0 = { s with x := s.fetch0.x, imar := s.reg pcIdx, ictrl := .readWord } := rfl

/-! ## The commit phase -/

theorem commit_idle (p : Config.Params) (s : State) (h : s.prev.pending = false) : s.commit p = s := by
  simp [State.commit, h]

theorem commit_misaligned (p : Config.Params) (s : State) (h : s.prev.pending = true) (hw : s.dctrl.isWord = true)
    (ha : s.dmar.getLsbD 0 = true) : s.commit p = s.raise (.misalignedData s.dmar) := by
  simp [State.commit, h, hw, ha]

/-- The transfer changes registers, DMBR and data memory, nothing else. -/
theorem transfer_frame (s : State) :
    s.transfer = { s with x := s.transfer.x, dmbr := s.transfer.dmbr, dm := s.transfer.dm } := by
  unfold State.transfer
  split <;> rfl

/-- An access that is done: the transfer, and `prev` no longer pending. -/
theorem commit_done (p : Config.Params) (s : State) (h : s.prev.pending = true) (ha : s.dctrl.isWord = false ∨ s.dmar.getLsbD 0 = false) :
    s.commit p = s.transfer.setPrev { s.prev with pending := false } := by
  have hp : s.transfer.prev = s.prev := by rw [transfer_frame]
  have hc : ¬ (s.dctrl.isWord && s.dmar.getLsbD 0) = true := by
    rcases ha with ha | ha <;> rw [ha] <;> simp
  rw [State.commit, if_pos h, if_neg hc]
  simp only [hp]

/-- The commit changes registers, DMBR, data memory, the pending bit of `prev` and the fault, nothing else. -/
theorem commit_frame (p : Config.Params) (s : State) :
    s.commit p = { s with
      x := (s.commit p).x, dmbr := (s.commit p).dmbr, dm := (s.commit p).dm, faulted := (s.commit p).faulted
      prev := { s.prev with pending := (s.commit p).prev.pending } } := by
  unfold State.commit State.transfer
  split
  · split
    · rfl
    · split <;> rfl
  · rfl

/-- After a commit that did not fault nothing is pending. -/
theorem commit_pending (p : Config.Params) (s : State) (h : (s.commit p).faulted = none) :
    (s.commit p).prev.pending = false := by
  cases hp : s.prev.pending
  · rw [commit_idle p s hp, hp]
  · by_cases hw : s.dctrl.isWord = true ∧ s.dmar.getLsbD 0 = true
    · rw [commit_misaligned p s hp hw.1 hw.2] at h
      simp at h
    · have : s.dctrl.isWord = false ∨ s.dmar.getLsbD 0 = false := by
        cases h1 : s.dctrl.isWord <;> cases h2 : s.dmar.getLsbD 0 <;> simp_all
      rw [commit_done p s hp this]
      rfl

/-- The commit keeps data memory canonical. -/
theorem commit_wf (p : Config.Params) (s : State) (h : Memory.wf s.dm) : Memory.wf (s.commit p).dm := by
  unfold State.commit
  split
  · split
    · exact h
    · unfold State.transfer
      split
      · exact h
      · exact h
      · exact wf_writeWord h _ _
      · exact wf_writeByte h _ _
  · exact h

/-! ## The two cycles -/

/-- A WAIT_1 cycle whose commit does not fault goes on to WAIT_0 (R180). -/
theorem wait1_next (p : Config.Params) (s : State) (h : (s.fetch0.decodeStage.commit p).faulted = none) :
    s.wait1 p = (s.fetch0.decodeStage.commit p).enter .wait0 := by
  simp [State.wait1, h]

/-- A WAIT_1 cycle whose commit faults ends there (60_exceptions.md R166). -/
theorem wait1_faulted (p : Config.Params) (s : State) (r : Fault) (h : (s.fetch0.decodeStage.commit p).faulted = some r) :
    s.wait1 p = (s.fetch0.decodeStage.commit p) := by
  simp [State.wait1, h]

/-! ## Fetch-phase-1 and the halt check -/

theorem fetch1_odd (p : Config.Params) (s : State) (h : s.imar.getLsbD 0 = true) : s.fetch1 p = s.raise (.misalignedFetch s.imar) := by
  simp [State.fetch1, h]

/-- An aligned fetch: the word read, one queue entry consumed, the word or the no-op into IR (R185). -/
theorem fetch1_even (p : Config.Params) (s : State) (h : s.imar.getLsbD 0 = false) :
    s.fetch1 p = (s.setBq s.bq.tail).deliver p (Memory.readWord s.im s.imar) s.suppresses := by
  rw [State.fetch1, if_neg (by rw [h]; exact Bool.false_ne_true), bqRemove_snd]

theorem suppresses_eq (s : State) : s.suppresses = (s.flushPending || s.bq.head? == some true) := by
  rw [State.suppresses, bqRemove_fst]

/-- The halt check changes R7 and `running`, nothing else (R194). -/
theorem haltCheck_frame (p : Config.Params) (s : State) :
    s.haltCheck p = { s with x := (s.haltCheck p).x, running := (s.haltCheck p).running } := by
  unfold State.haltCheck
  split
  · rfl
  · split
    · rfl
    · split <;> rfl

/-- With no breakpoint match the decided parameters never halt (R194, D18, D30). -/
theorem haltCheck_runs (s : State) (h : s.breakpointHit = false) : s.haltCheck Config.params = s := by
  simp [State.haltCheck, Config.params, h]

theorem breakpointHit_none (s : State) (h : s.breakpoint = none) : s.breakpointHit = false := by
  simp [State.breakpointHit, h]

theorem haltCheck_hit (p : Config.Params) (s : State) (h : s.breakpointHit = true) :
    s.haltCheck p = (s.setReg pcIdx (s.reg pcIdx - p.breakpointRollback)).stop := by
  simp [State.haltCheck, h, State.haltBack]

/-- The end of a WAIT_0 cycle whose compute phase did not fault, with an aligned fetch. -/
theorem finishWait0_even (p : Config.Params) (s : State) (hf : s.faulted = none) (h : s.imar.getLsbD 0 = false) :
    s.finishWait0 p = (((s.setPrev s.cur).fetch1 p).haltCheck p).enter .wait1 := by
  have h1 : ((s.setPrev s.cur).fetch1 p).faulted = none := by
    rw [fetch1_even p (s.setPrev s.cur) h]
    simpa using hf
  simp [State.finishWait0, hf, h1]

/-- The end of a WAIT_0 cycle whose compute phase did not fault, with a fetch from an odd address (R51, R185). -/
theorem finishWait0_odd (p : Config.Params) (s : State) (hf : s.faulted = none) (h : s.imar.getLsbD 0 = true) :
    s.finishWait0 p = (s.setPrev s.cur).raise (.misalignedFetch s.imar) := by
  simp [State.finishWait0, hf, fetch1_odd p (s.setPrev s.cur) h]

/-- The end of a WAIT_0 cycle whose compute phase faulted (60_exceptions.md R166). -/
theorem finishWait0_faulted (p : Config.Params) (s : State) (r : Fault) (hf : s.faulted = some r) : s.finishWait0 p = s := by
  simp [State.finishWait0, hf]

end Sys2Proof.Machine
end

