-- ==== Sys2Proof/Laws/Stages.lean ====
section
/-! SUPPORT. Field by field, what the stages of a cycle leave unchanged. -/

namespace Sys2Proof.Machine

variable (p : Config.Params) (s : State)

/-! ## Fetch-phase-0 -/

@[simp] theorem fetch0_imar : s.fetch0.imar = s.reg pcIdx := rfl
@[simp] theorem fetch0_ictrl : s.fetch0.ictrl = .readWord := rfl
@[simp] theorem fetch0_flags : s.fetch0.flags = s.flags := rfl
@[simp] theorem fetch0_imbr : s.fetch0.imbr = s.imbr := rfl
@[simp] theorem fetch0_ir : s.fetch0.ir = s.ir := rfl
@[simp] theorem fetch0_irTag : s.fetch0.irTag = s.irTag := rfl
@[simp] theorem fetch0_dmar : s.fetch0.dmar = s.dmar := rfl
@[simp] theorem fetch0_dmbr : s.fetch0.dmbr = s.dmbr := rfl
@[simp] theorem fetch0_dctrl : s.fetch0.dctrl = s.dctrl := rfl
@[simp] theorem fetch0_cycleState : s.fetch0.cycleState = s.cycleState := rfl
@[simp] theorem fetch0_running : s.fetch0.running = s.running := rfl
@[simp] theorem fetch0_faulted : s.fetch0.faulted = s.faulted := rfl
@[simp] theorem fetch0_failedThisCycle : s.fetch0.failedThisCycle = s.failedThisCycle := rfl
@[simp] theorem fetch0_zeroFetchedThisCycle : s.fetch0.zeroFetchedThisCycle = s.zeroFetchedThisCycle := rfl
@[simp] theorem fetch0_bq : s.fetch0.bq = s.bq := rfl
@[simp] theorem fetch0_flushPending : s.fetch0.flushPending = s.flushPending := rfl
@[simp] theorem fetch0_cur : s.fetch0.cur = s.cur := rfl
@[simp] theorem fetch0_prev : s.fetch0.prev = s.prev := rfl
@[simp] theorem fetch0_breakpoint : s.fetch0.breakpoint = s.breakpoint := rfl
@[simp] theorem fetch0_startingAddress : s.fetch0.startingAddress = s.startingAddress := rfl
@[simp] theorem fetch0_clockCycles : s.fetch0.clockCycles = s.clockCycles := rfl
@[simp] theorem fetch0_failures : s.fetch0.failures = s.failures := rfl
@[simp] theorem fetch0_im : s.fetch0.im = s.im := rfl
@[simp] theorem fetch0_dm : s.fetch0.dm = s.dm := rfl

/-! ## The commit phase -/

@[simp] theorem commit_flags : (s.commit p).flags = s.flags := (congrArg State.flags (commit_frame p s) :)
@[simp] theorem commit_imar : (s.commit p).imar = s.imar := (congrArg State.imar (commit_frame p s) :)
@[simp] theorem commit_imbr : (s.commit p).imbr = s.imbr := (congrArg State.imbr (commit_frame p s) :)
@[simp] theorem commit_ictrl : (s.commit p).ictrl = s.ictrl := (congrArg State.ictrl (commit_frame p s) :)
@[simp] theorem commit_ir : (s.commit p).ir = s.ir := (congrArg State.ir (commit_frame p s) :)
@[simp] theorem commit_irTag : (s.commit p).irTag = s.irTag := (congrArg State.irTag (commit_frame p s) :)
@[simp] theorem commit_dmar : (s.commit p).dmar = s.dmar := (congrArg State.dmar (commit_frame p s) :)
@[simp] theorem commit_dctrl : (s.commit p).dctrl = s.dctrl := (congrArg State.dctrl (commit_frame p s) :)
@[simp] theorem commit_cycleState : (s.commit p).cycleState = s.cycleState := (congrArg State.cycleState (commit_frame p s) :)
@[simp] theorem commit_running : (s.commit p).running = s.running := (congrArg State.running (commit_frame p s) :)
@[simp] theorem commit_failedThisCycle : (s.commit p).failedThisCycle = s.failedThisCycle := (congrArg State.failedThisCycle (commit_frame p s) :)
@[simp] theorem commit_zeroFetchedThisCycle : (s.commit p).zeroFetchedThisCycle = s.zeroFetchedThisCycle := (congrArg State.zeroFetchedThisCycle (commit_frame p s) :)
@[simp] theorem commit_bq : (s.commit p).bq = s.bq := (congrArg State.bq (commit_frame p s) :)
@[simp] theorem commit_flushPending : (s.commit p).flushPending = s.flushPending := (congrArg State.flushPending (commit_frame p s) :)
@[simp] theorem commit_cur : (s.commit p).cur = s.cur := (congrArg State.cur (commit_frame p s) :)
@[simp] theorem commit_breakpoint : (s.commit p).breakpoint = s.breakpoint := (congrArg State.breakpoint (commit_frame p s) :)
@[simp] theorem commit_startingAddress : (s.commit p).startingAddress = s.startingAddress := (congrArg State.startingAddress (commit_frame p s) :)
@[simp] theorem commit_clockCycles : (s.commit p).clockCycles = s.clockCycles := (congrArg State.clockCycles (commit_frame p s) :)
@[simp] theorem commit_failures : (s.commit p).failures = s.failures := (congrArg State.failures (commit_frame p s) :)
@[simp] theorem commit_im : (s.commit p).im = s.im := (congrArg State.im (commit_frame p s) :)
@[simp] theorem commit_prev_opcode : (s.commit p).prev.opcode = s.prev.opcode := (congrArg (fun t => t.prev.opcode) (commit_frame p s) :)
@[simp] theorem commit_prev_instr : (s.commit p).prev.instr = s.prev.instr := (congrArg (fun t => t.prev.instr) (commit_frame p s) :)
@[simp] theorem commit_prev_addr : (s.commit p).prev.addr = s.prev.addr := (congrArg (fun t => t.prev.addr) (commit_frame p s) :)

/-! ## Fetch-phase-1 -/

/-- A fetch changes the fetch registers, the queue and the fault, nothing else (R185). -/
theorem fetch1_frame :
    (s.fetch1 p) = { s with
      imbr := (s.fetch1 p).imbr, ir := (s.fetch1 p).ir, irTag := (s.fetch1 p).irTag, bq := (s.fetch1 p).bq, faulted := (s.fetch1 p).faulted
      zeroFetchedThisCycle := (s.fetch1 p).zeroFetchedThisCycle, flushPending := (s.fetch1 p).flushPending } := by
  cases h : s.imar.getLsbD 0
  · rw [fetch1_even p s h]
    rfl
  · rw [fetch1_odd p s h]
    rfl

@[simp] theorem fetch1_x : (s.fetch1 p).x = s.x := (congrArg State.x (fetch1_frame p s) :)
@[simp] theorem fetch1_flags : (s.fetch1 p).flags = s.flags := (congrArg State.flags (fetch1_frame p s) :)
@[simp] theorem fetch1_imar : (s.fetch1 p).imar = s.imar := (congrArg State.imar (fetch1_frame p s) :)
@[simp] theorem fetch1_ictrl : (s.fetch1 p).ictrl = s.ictrl := (congrArg State.ictrl (fetch1_frame p s) :)
@[simp] theorem fetch1_dmar : (s.fetch1 p).dmar = s.dmar := (congrArg State.dmar (fetch1_frame p s) :)
@[simp] theorem fetch1_dmbr : (s.fetch1 p).dmbr = s.dmbr := (congrArg State.dmbr (fetch1_frame p s) :)
@[simp] theorem fetch1_dctrl : (s.fetch1 p).dctrl = s.dctrl := (congrArg State.dctrl (fetch1_frame p s) :)
@[simp] theorem fetch1_cycleState : (s.fetch1 p).cycleState = s.cycleState := (congrArg State.cycleState (fetch1_frame p s) :)
@[simp] theorem fetch1_running : (s.fetch1 p).running = s.running := (congrArg State.running (fetch1_frame p s) :)
@[simp] theorem fetch1_failedThisCycle : (s.fetch1 p).failedThisCycle = s.failedThisCycle := (congrArg State.failedThisCycle (fetch1_frame p s) :)
@[simp] theorem fetch1_cur : (s.fetch1 p).cur = s.cur := (congrArg State.cur (fetch1_frame p s) :)
@[simp] theorem fetch1_prev : (s.fetch1 p).prev = s.prev := (congrArg State.prev (fetch1_frame p s) :)
@[simp] theorem fetch1_breakpoint : (s.fetch1 p).breakpoint = s.breakpoint := (congrArg State.breakpoint (fetch1_frame p s) :)
@[simp] theorem fetch1_startingAddress : (s.fetch1 p).startingAddress = s.startingAddress := (congrArg State.startingAddress (fetch1_frame p s) :)
@[simp] theorem fetch1_clockCycles : (s.fetch1 p).clockCycles = s.clockCycles := (congrArg State.clockCycles (fetch1_frame p s) :)
@[simp] theorem fetch1_failures : (s.fetch1 p).failures = s.failures := (congrArg State.failures (fetch1_frame p s) :)
@[simp] theorem fetch1_im : (s.fetch1 p).im = s.im := (congrArg State.im (fetch1_frame p s) :)
@[simp] theorem fetch1_dm : (s.fetch1 p).dm = s.dm := (congrArg State.dm (fetch1_frame p s) :)
@[simp] theorem fetch1_reg (i : RegIdx) : (s.fetch1 p).reg i = s.reg i := (congrArg (State.reg · i) (fetch1_frame p s) :)

/-! ## The halt check -/

@[simp] theorem haltCheck_flags : (s.haltCheck p).flags = s.flags := (congrArg State.flags (haltCheck_frame p s) :)
@[simp] theorem haltCheck_imar : (s.haltCheck p).imar = s.imar := (congrArg State.imar (haltCheck_frame p s) :)
@[simp] theorem haltCheck_imbr : (s.haltCheck p).imbr = s.imbr := (congrArg State.imbr (haltCheck_frame p s) :)
@[simp] theorem haltCheck_ictrl : (s.haltCheck p).ictrl = s.ictrl := (congrArg State.ictrl (haltCheck_frame p s) :)
@[simp] theorem haltCheck_ir : (s.haltCheck p).ir = s.ir := (congrArg State.ir (haltCheck_frame p s) :)
@[simp] theorem haltCheck_irTag : (s.haltCheck p).irTag = s.irTag := (congrArg State.irTag (haltCheck_frame p s) :)
@[simp] theorem haltCheck_dmar : (s.haltCheck p).dmar = s.dmar := (congrArg State.dmar (haltCheck_frame p s) :)
@[simp] theorem haltCheck_dmbr : (s.haltCheck p).dmbr = s.dmbr := (congrArg State.dmbr (haltCheck_frame p s) :)
@[simp] theorem haltCheck_dctrl : (s.haltCheck p).dctrl = s.dctrl := (congrArg State.dctrl (haltCheck_frame p s) :)
@[simp] theorem haltCheck_cycleState : (s.haltCheck p).cycleState = s.cycleState := (congrArg State.cycleState (haltCheck_frame p s) :)
@[simp] theorem haltCheck_faulted : (s.haltCheck p).faulted = s.faulted := (congrArg State.faulted (haltCheck_frame p s) :)
@[simp] theorem haltCheck_failedThisCycle : (s.haltCheck p).failedThisCycle = s.failedThisCycle := (congrArg State.failedThisCycle (haltCheck_frame p s) :)
@[simp] theorem haltCheck_zeroFetchedThisCycle : (s.haltCheck p).zeroFetchedThisCycle = s.zeroFetchedThisCycle := (congrArg State.zeroFetchedThisCycle (haltCheck_frame p s) :)
@[simp] theorem haltCheck_bq : (s.haltCheck p).bq = s.bq := (congrArg State.bq (haltCheck_frame p s) :)
@[simp] theorem haltCheck_flushPending : (s.haltCheck p).flushPending = s.flushPending := (congrArg State.flushPending (haltCheck_frame p s) :)
@[simp] theorem haltCheck_cur : (s.haltCheck p).cur = s.cur := (congrArg State.cur (haltCheck_frame p s) :)
@[simp] theorem haltCheck_prev : (s.haltCheck p).prev = s.prev := (congrArg State.prev (haltCheck_frame p s) :)
@[simp] theorem haltCheck_breakpoint : (s.haltCheck p).breakpoint = s.breakpoint := (congrArg State.breakpoint (haltCheck_frame p s) :)
@[simp] theorem haltCheck_startingAddress : (s.haltCheck p).startingAddress = s.startingAddress := (congrArg State.startingAddress (haltCheck_frame p s) :)
@[simp] theorem haltCheck_clockCycles : (s.haltCheck p).clockCycles = s.clockCycles := (congrArg State.clockCycles (haltCheck_frame p s) :)
@[simp] theorem haltCheck_failures : (s.haltCheck p).failures = s.failures := (congrArg State.failures (haltCheck_frame p s) :)
@[simp] theorem haltCheck_im : (s.haltCheck p).im = s.im := (congrArg State.im (haltCheck_frame p s) :)
@[simp] theorem haltCheck_dm : (s.haltCheck p).dm = s.dm := (congrArg State.dm (haltCheck_frame p s) :)

/-- The halt check writes no register but R7. -/
theorem haltCheck_reg (i : RegIdx) (h : i ≠ pcIdx) : (s.haltCheck p).reg i = s.reg i := by
  unfold State.haltCheck State.haltBack
  split
  · simp [h]
  · split
    · simp [h]
    · split <;> rfl

end Sys2Proof.Machine
end

