-- ==== Sys2Proof/Laws/Exec.lean ====
section
/-! SUPPORT. What a compute phase can do, said once for all instructions: the shapes of change of `Effect`
(spec/41_arithmetic.md to 46_branch.md). -/

namespace Sys2Proof.Machine

/-- The register file replaced. -/
def State.setX (s : State) (x : Vector Word 8) : State := { s with x := x }

/-- What the compute phase of an instruction may make of a state, under given parameters. -/
inductive Effect (p : Config.Params) (s : State) (i : Instr) : State → Prop
  /-- Registers and flags, nothing else. -/
  | data (x : Vector Word 8) (f : Flags) : Effect p s i ((s.setX x).setFlags f)
  /-- Registers, and the queue re-armed with one flush entry (43 R120; 46 R148). -/
  | flush (x : Vector Word 8) : Effect p s i ((s.setX x).setBq [true])
  /-- The decisions of a CEX (44 R132). -/
  | queue (l : List Bool) : Effect p s i (s.bqInsertAll p l)
  /-- The base update and the request of a load or store (45 R137). -/
  | access (x : Vector Word 8) (c : MemCtrl) (a : Word) (h : accessCtrl i = some c) :
      Effect p s i ((s.setX x).requestAccess c a)
  /-- One failure recorded (60 R163). -/
  | failure (r : FailReason) : Effect p s i (s.fail r)
  /-- INC and DEC both set (45 R139). -/
  | refusedAccess : Effect p s i (s.raise (.ldStIncAndDec s.cur.opcode))

theorem Effect.same (p : Config.Params) (s : State) (i : Instr) : Effect p s i s := .data s.x s.flags

theorem Effect.regs (p : Config.Params) (s : State) (i : Instr) (x : Vector Word 8) : Effect p s i (s.setX x) := .data x s.flags

theorem Effect.branchIf (p : Config.Params) (s : State) (i : Instr) (c : Bool) (o : Word) : Effect p s i (s.branchIf c o) := by
  cases c
  · exact .same p s i
  · rw [State.branchIf, if_pos rfl, take_eq]
    exact .flush _

theorem Effect.logic (p : Config.Params) (s : State) (i : Instr) (w : Width) (dst : RegIdx) (r : Word) : Effect p s i (s.logicWrite w dst r) := by
  rw [State.logicWrite, writeW_eq]
  exact .data _ _

theorem Effect.bits (p : Config.Params) (s : State) (i : Instr) (w : Width) (src : Operand) (f : Word → State)
    (hf : ∀ m, Effect p s i (f m)) {t : State}
    (h : (match s.bitMask w src with
      | none => Host.Outcome.next (s.fail .bitIndexOutOfRange)
      | some m => (Host.Outcome.next (f m) : Host.Outcome State Fault Refusal)) = .next t) : Effect p s i t := by
  split at h <;> (injection h with h; subst h)
  · exact .failure _
  · exact hf _

theorem Effect.indirect (p : Config.Params) (s : State) (i : Instr) (prpo dec inc : Bool) (w : Width) (b : RegIdx) (c : MemCtrl)
    (h : accessCtrl i = some c) : Effect p s i (s.indirectAccess prpo dec inc w b c) := by
  unfold State.indirectAccess
  split
  · exact .refusedAccess
  · exact .access _ c _ h

/-- Every instruction's compute phase has one of the shapes of `Effect`, under all parameters. -/
theorem execWith_effect {p : Config.Params} {i : Instr} {s t : State} (h : execWith p i s = .next t) : Effect p s i t := by
  cases i
  case bit w src dst => exact Effect.bits p s _ w src _ (fun _ => .data s.x _) h
  case bic w src dst => exact Effect.bits p s _ w src _ (fun m => .logic p s _ w dst (s.aOperand w dst &&& ~~~m)) h
  case bis w src dst => exact Effect.bits p s _ w src _ (fun m => .logic p s _ w dst (s.aOperand w dst ||| m)) h
  case bl o =>
    simp only [execWith, exec, execBl] at h
    split at h <;> (injection h with h; subst h)
    · exact .same p s _
    · rw [take_eq]
      exact .flush _
  case mov w src dst =>
    simp only [execWith, exec, execMov] at h
    injection h with h
    subst h
    split
    · rw [flushQueue_eq, writeW_eq]
      exact .flush _
    · rw [writeW_eq]
      exact .regs p s _ _
  case swap src dst =>
    simp only [execWith, exec, execSwap] at h
    injection h with h
    subst h
    split
    · rw [flushQueue_eq]
      exact .flush _
    · exact .regs p s _ _
  all_goals
    injection h with h
    subst h
  case beq | bne | bc | bnc | bn | bge | blt | bra => exact Effect.branchIf ..
  case add | addc | sub | subc | dadd | xor | and | or | sra | rrc =>
    first
      | exact .data _ _
      | (simp only [State.aluWrite, State.logicWrite, writeW_eq]; exact .data _ _)
  case cmp => exact .data s.x _
  case setcc | clrcc => exact .data s.x _
  case swpb | movl | movlz | movls | movh => exact .regs p s _ _
  case sxt => exact .data _ _
  case setpri | svc | undefined => exact .failure _
  case cex => exact .queue _
  case ld | st => exact Effect.indirect _ _ _ _ _ _ _ _ _ rfl
  case ldr | str => exact .access s.x _ _ rfl

/-- Every instruction's compute phase has one of the shapes of `Effect`. -/
theorem exec_effect {i : Instr} {s t : State} (h : exec i s = .next t) : Effect Config.params s i t :=
  execWith_effect ((execWith_params i s).trans h)

/-- What no compute phase changes. -/
structure Kept (s t : State) : Prop where
  imar : t.imar = s.imar
  ictrl : t.ictrl = s.ictrl
  ir : t.ir = s.ir
  irTag : t.irTag = s.irTag
  cycleState : t.cycleState = s.cycleState
  running : t.running = s.running
  flushPending : t.flushPending = s.flushPending
  prev : t.prev = s.prev
  curInstr : t.cur.instr = s.cur.instr
  curOpcode : t.cur.opcode = s.cur.opcode
  curAddr : t.cur.addr = s.cur.addr
  breakpoint : t.breakpoint = s.breakpoint
  startingAddress : t.startingAddress = s.startingAddress
  clockCycles : t.clockCycles = s.clockCycles
  im : t.im = s.im
  dm : t.dm = s.dm

theorem Effect.kept {p : Config.Params} {s t : State} {i : Instr} (h : Effect p s i t) : Kept s t := by
  cases h with
  | queue l => rw [bqInsertAll_frame]; constructor <;> rfl
  | _ => constructor <;> rfl

/-- A compute phase keeps the queue within its capacity. -/
theorem Effect.length {p : Config.Params} {s t : State} {i : Instr} (h : Effect p s i t) (hp : p.Admissible)
    (hq : s.bq.length ≤ p.bqCapacity) : t.bq.length ≤ p.bqCapacity := by
  cases h with
  | queue l => exact bqInsertAll_length _ l s hq
  | flush x => exact le_trans (by simp) hp
  | _ => exact hq

/-- An access is pending after a compute phase only if it was before, or it is the one the instruction asked for. -/
theorem Effect.pending {p : Config.Params} {s t : State} {i : Instr} (h : Effect p s i t) (hp : t.cur.pending = true) :
    s.cur.pending = true ∨ accessCtrl i = some t.dctrl := by
  cases h with
  | queue l => rw [bqInsertAll_frame] at hp; exact .inl hp
  | access x c a h => exact .inr h
  | _ => exact .inl hp

/-- A compute phase records at most one failure, of the instruction in `cur`, at the clock as it stands. -/
theorem Effect.failures {p : Config.Params} {s t : State} {i : Instr} (h : Effect p s i t) :
    t.failures = s.failures ∨ ∃ r, t = s.fail r := by
  cases h with
  | queue l => rw [bqInsertAll_frame]; exact .inl rfl
  | failure r => exact .inr ⟨r, rfl⟩
  | _ => exact .inl rfl

/-! ## The step -/

/-- No meaning stops: a compute phase always answers a next state. -/
theorem exec_next (i : Instr) (s : State) : ∃ t, exec i s = .next t := by
  cases i
  case bit => simp only [exec, execBit]; split <;> exact ⟨_, rfl⟩
  case bic => simp only [exec, execBic]; split <;> exact ⟨_, rfl⟩
  case bis => simp only [exec, execBis]; split <;> exact ⟨_, rfl⟩
  case bl => simp only [exec, execBl]; split <;> exact ⟨_, rfl⟩
  all_goals exact ⟨_, rfl⟩

/-- No meaning stops under any parameters. -/
theorem execWith_next (p : Config.Params) (i : Instr) (s : State) : ∃ t, execWith p i s = .next t := by
  by_cases h : ∀ c tc fc, i ≠ .cex c tc fc
  · rw [execWith_of_not_cex p i s h]
    exact exec_next i s
  · simp only [ne_eq, not_forall, not_not] at h
    obtain ⟨c, tc, fc, rfl⟩ := h
    exact ⟨_, rfl⟩

/-- A step of a live machine in WAIT_0 whose compute phase answers `t`. -/
theorem stepWith_wait0 {p : Config.Params} {s t : State} (h : s.Live) (hc : s.cycleState = .wait0)
    (he : execWith p s.cur.instr s.tick = .next t) : s.stepWith p = .next (t.finishWait0 p) := by
  rw [stepWith_live p s h, cycle_wait0 _ _ hc, wait0_next _ he]

theorem step_wait0 {s t : State} (h : s.Live) (hc : s.cycleState = .wait0) (he : exec s.cur.instr s.tick = .next t) :
    step s = .next (t.finishWait0 Config.params) :=
  stepWith_wait0 h hc ((execWith_params ..).trans he)

/-- Everything a step can do when it answers a next state (R178 to R183). -/
theorem stepWith_cases {p : Config.Params} {s t : State} (h : s.stepWith p = .next t) :
    (t = s ∧ s.running = false ∧ s.faulted = none) ∨
    (s.Live ∧ s.cycleState = .start ∧ t = (s.tick.startStage p).wait1 p) ∨
    (s.Live ∧ s.cycleState = .wait1 ∧ t = s.tick.wait1 p) ∨
    (s.Live ∧ s.cycleState = .wait0 ∧ ∃ u, execWith p s.cur.instr s.tick = .next u ∧ t = u.finishWait0 p) := by
  by_cases hl : s.Live
  · rcases hcs : s.cycleState with _ | _ | _
    · rw [stepWith_live p s hl, cycle_start _ _ hcs] at h
      injection h with h
      exact .inr (.inl ⟨hl, rfl, h.symm⟩)
    · obtain ⟨u, he⟩ := execWith_next p s.cur.instr s.tick
      rw [stepWith_wait0 hl hcs he] at h
      injection h with h
      exact .inr (.inr (.inr ⟨hl, rfl, u, he, h.symm⟩))
    · rw [stepWith_live p s hl, cycle_wait1 _ _ hcs] at h
      injection h with h
      exact .inr (.inr (.inl ⟨hl, rfl, h.symm⟩))
  · rcases hf : s.faulted with _ | r
    · have hr : s.running = false := by
        cases hr : s.running
        · rfl
        · exact absurd ⟨hr, hf⟩ hl
      rw [stepWith_idle p s hr hf] at h
      injection h with h
      exact .inl ⟨h.symm, hr, rfl⟩
    · rw [stepWith_faulted p s r hf] at h
      cases h

theorem step_cases {s t : State} (h : step s = .next t) :
    (t = s ∧ s.running = false ∧ s.faulted = none) ∨
    (s.Live ∧ s.cycleState = .start ∧ t = (s.tick.startStage Config.params).wait1 Config.params) ∨
    (s.Live ∧ s.cycleState = .wait1 ∧ t = s.tick.wait1 Config.params) ∨
    (s.Live ∧ s.cycleState = .wait0 ∧ ∃ u, exec s.cur.instr s.tick = .next u ∧ t = u.finishWait0 Config.params) := by
  simpa only [execWith_params] using stepWith_cases (show s.stepWith Config.params = .next t from h)

end Sys2Proof.Machine
end

