-- ==== Sys2Proof/Laws/Numbers.lean ====
section
/-! SUPPORT. The bit operations of the model as arithmetic on numbers. -/

namespace Sys2Proof.Machine

theorem lo8_toNat (v : Word) : (lo8 v).toNat = v.toNat % 256 := by simp [lo8]

theorem hi8_toNat (v : Word) : (hi8 v).toNat = v.toNat / 256 := by
  have := v.isLt
  simp only [hi8, BitVec.extractLsb'_toNat, Nat.shiftRight_eq_div_pow]
  omega

/-- The address after an even one does not wrap (20_memory.md R52). -/
theorem succ_toNat_of_even (a : Word) (h : a.getLsbD 0 = false) : (a + 1).toNat = a.toNat + 1 := by
  rw [BitVec.getLsbD, Nat.testBit_zero, decide_eq_false_iff_not] at h
  have := a.isLt
  rw [BitVec.toNat_add]
  simp
  omega

theorem trunc_getLsbD (w : Width) (v : Word) (k : Nat) :
    (trunc w v).getLsbD k = (decide (k < bits w) && v.getLsbD k) := by
  rcases Nat.lt_or_ge k 16 with hk | hk
  · cases w
    · simp [trunc, bits, hk]
    · simp only [trunc, bits, BitVec.getLsbD_and]
      interval_cases k <;> simp
  · simp [BitVec.getLsbD_of_ge _ _ hk]

/-- A w-bit number fits in a word. -/
theorem ofNat_mod_bits (w : Width) (n : Nat) : (BitVec.ofNat 16 (n % 2 ^ bits w)).toNat = n % 2 ^ bits w := by
  cases w <;> simp only [BitVec.toNat_ofNat, bits] <;> omega

/-- The sign bit of a w-bit value, as a comparison. -/
theorem signBit_eq (w : Width) (r : Word) (h : r.toNat < 2 ^ bits w) : signBit w r = decide (2 ^ (bits w - 1) ≤ r.toNat) := by
  rw [Bool.eq_iff_iff]
  cases w <;>
  · simp only [signBit, bits, BitVec.getLsbD, Nat.testBit_eq_decide_div_mod_eq, decide_eq_true_iff] at *
    norm_num at *
    omega

/-- The shift of a w-bit value: half of it, and the entering bit at the top (43 R121, R122). -/
theorem shiftRight1_toNat (w : Width) (a : Word) (b : Bool) (ha : a.toNat < 2 ^ bits w) :
    (shiftRight1 w a b).toNat = a.toNat / 2 + b.toNat * 2 ^ (bits w - 1) := by
  simp only [shiftRight1, BitVec.toNat_add, BitVec.toNat_ushiftRight, Nat.shiftRight_eq_div_pow]
  cases w <;> cases b <;> simp [bits] at * <;> omega

/-- The parity of a sum. -/
theorem add_getLsbD_zero (a b : Word) : (a + b).getLsbD 0 = (a.getLsbD 0 ^^ b.getLsbD 0) := by
  simp only [BitVec.getLsbD, Nat.testBit_zero, BitVec.toNat_add]
  rw [Bool.eq_iff_iff]
  simp only [decide_eq_true_iff, bne_iff_ne, ne_eq, decide_eq_decide]
  omega

end Sys2Proof.Machine
end

