-- ==== Sys2Proof/Laws/PerInstr.lean ====
section
/-! SUPPORT. One statement for every instruction: its word has the fixed bits of its row of spec/opcode_table.json. -/

namespace Sys2Proof.Laws.EncodesItsRow

/-- The mask and the match of the instruction's row of spec/opcode_table.json; for `undefined`, of the first of its rows. -/
def row : Instr → Word × Word
  | .bl _ => (0xE000#16, 0x0000#16)
  | .beq _ => (0xFC00#16, 0x2000#16)
  | .bne _ => (0xFC00#16, 0x2400#16)
  | .bc _ => (0xFC00#16, 0x2800#16)
  | .bnc _ => (0xFC00#16, 0x2C00#16)
  | .bn _ => (0xFC00#16, 0x3000#16)
  | .bge _ => (0xFC00#16, 0x3400#16)
  | .blt _ => (0xFC00#16, 0x3800#16)
  | .bra _ => (0xFC00#16, 0x3C00#16)
  | .add _ _ _ => (0xFF00#16, 0x4000#16)
  | .addc _ _ _ => (0xFF00#16, 0x4100#16)
  | .sub _ _ _ => (0xFF00#16, 0x4200#16)
  | .subc _ _ _ => (0xFF00#16, 0x4300#16)
  | .dadd _ _ _ => (0xFF00#16, 0x4400#16)
  | .cmp _ _ _ => (0xFF00#16, 0x4500#16)
  | .xor _ _ _ => (0xFF00#16, 0x4600#16)
  | .and _ _ _ => (0xFF00#16, 0x4700#16)
  | .or _ _ _ => (0xFF00#16, 0x4800#16)
  | .bit _ _ _ => (0xFF00#16, 0x4900#16)
  | .bic _ _ _ => (0xFF00#16, 0x4A00#16)
  | .bis _ _ _ => (0xFF00#16, 0x4B00#16)
  | .mov _ _ _ => (0xFF80#16, 0x4C00#16)
  | .swap _ _ => (0xFF80#16, 0x4C80#16)
  | .sra _ _ => (0xFFB8#16, 0x4D00#16)
  | .rrc _ _ => (0xFFB8#16, 0x4D08#16)
  | .swpb _ => (0xFFB8#16, 0x4D18#16)
  | .sxt _ => (0xFFB8#16, 0x4D20#16)
  | .setpri _ => (0xFFF8#16, 0x4D80#16)
  | .svc _ => (0xFFF0#16, 0x4D90#16)
  | .setcc _ => (0xFFE0#16, 0x4DA0#16)
  | .clrcc _ => (0xFFC0#16, 0x4DC0#16)
  | .cex _ _ _ => (0xFC00#16, 0x5000#16)
  | .ld _ _ _ _ _ _ => (0xFC00#16, 0x5800#16)
  | .st _ _ _ _ _ _ => (0xFC00#16, 0x5C00#16)
  | .movl _ _ => (0xF800#16, 0x6000#16)
  | .movlz _ _ => (0xF800#16, 0x6800#16)
  | .movls _ _ => (0xF800#16, 0x7000#16)
  | .movh _ _ => (0xF800#16, 0x7800#16)
  | .ldr _ _ _ _ => (0xC000#16, 0x8000#16)
  | .str _ _ _ _ => (0xC000#16, 0xC000#16)
  | .undefined => (0xFFB8#16, 0x4D10#16)

/-- The encoded word has the fixed bits of its row. -/
def Statement (i : Instr) : Prop := encode i &&& (row i).1 = (row i).2

/-- Appended words are masked part by part. -/
theorem append_and_append {m n : Nat} (a c : BitVec m) (b d : BitVec n) : (a ++ b) &&& (c ++ d) = (a &&& c) ++ (b &&& d) := by
  ext k hk
  simp only [BitVec.getElem_and, BitVec.getElem_append]
  split <;> rfl

theorem and_ones {m : Nat} (a : BitVec m) : a &&& BitVec.allOnes m = a := BitVec.and_allOnes

theorem and_zeros {m : Nat} (a : BitVec m) : a &&& 0#m = 0#m := BitVec.and_zero

theorem branch (c : BitVec 3) (o : Word) : encBranch c o &&& 0xFC00#16 = 0b001#3 ++ c ++ 0#10 := by
  change (0b001#3 ++ c ++ o.extractLsb' 1 10) &&& (BitVec.allOnes 3 ++ BitVec.allOnes 3 ++ 0#10) = _
  rw [append_and_append, append_and_append, and_ones, and_ones, and_zeros]

theorem register (op : Byte) (w : Width) (s : Operand) (d : RegIdx) :
    encRegister op w s d &&& 0xFF00#16 = op ++ 0#1 ++ 0#1 ++ 0#3 ++ 0#3 := by
  change (op ++ BitVec.ofBool s.rc ++ BitVec.ofBool w.toBit ++ s.idx ++ d) &&&
    (BitVec.allOnes 8 ++ 0#1 ++ 0#1 ++ 0#3 ++ 0#3) = _
  simp only [append_and_append, and_ones, and_zeros]

theorem shift (b : Bool) (c d : RegIdx) : encShift b c d &&& 0xFFB8#16 = 0x4D#8 ++ 0#1 ++ 0#1 ++ c ++ 0#3 := by
  change (0x4D#8 ++ 0#1 ++ BitVec.ofBool b ++ c ++ d) &&&
    (BitVec.allOnes 8 ++ BitVec.allOnes 1 ++ 0#1 ++ BitVec.allOnes 3 ++ 0#3) = _
  simp only [append_and_append, and_ones, and_zeros]

theorem indirect (l p de i : Bool) (w : Width) (s d : RegIdx) :
    encIndirect l p de i w s d &&& 0xFC00#16 = 0b01011#5 ++ BitVec.ofBool l ++ 0#1 ++ 0#1 ++ 0#1 ++ 0#1 ++ 0#3 ++ 0#3 := by
  change (0b01011#5 ++ BitVec.ofBool l ++ BitVec.ofBool p ++ BitVec.ofBool de ++ BitVec.ofBool i ++ BitVec.ofBool w.toBit ++
    s ++ d) &&& (BitVec.allOnes 5 ++ BitVec.allOnes 1 ++ 0#1 ++ 0#1 ++ 0#1 ++ 0#1 ++ 0#3 ++ 0#3) = _
  simp only [append_and_append, and_ones, and_zeros]

theorem immediate (m : BitVec 2) (b : Byte) (d : RegIdx) : encMove m b d &&& 0xF800#16 = 0b011#3 ++ m ++ 0#8 ++ 0#3 := by
  change (0b011#3 ++ m ++ b ++ d) &&& (BitVec.allOnes 3 ++ BitVec.allOnes 2 ++ 0#8 ++ 0#3) = _
  simp only [append_and_append, and_ones, and_zeros]

theorem relative (op : BitVec 2) (o : Word) (w : Width) (s d : RegIdx) :
    encRelative op o w s d &&& 0xC000#16 = op ++ 0#7 ++ 0#1 ++ 0#3 ++ 0#3 := by
  change (op ++ o.extractLsb' 0 7 ++ BitVec.ofBool w.toBit ++ s ++ d) &&& (BitVec.allOnes 2 ++ 0#7 ++ 0#1 ++ 0#3 ++ 0#3) = _
  simp only [append_and_append, and_ones, and_zeros]

theorem bl : ∀ a0, Statement (.bl a0) := by
  intro a0
  change (0b000#3 ++ a0.extractLsb' 1 13) &&& (BitVec.allOnes 3 ++ 0#13) = _
  simp only [append_and_append, and_ones, and_zeros]
  rfl
theorem beq : ∀ a0, Statement (.beq a0) := fun _ => branch _ _
theorem bne : ∀ a0, Statement (.bne a0) := fun _ => branch _ _
theorem bc : ∀ a0, Statement (.bc a0) := fun _ => branch _ _
theorem bnc : ∀ a0, Statement (.bnc a0) := fun _ => branch _ _
theorem bn : ∀ a0, Statement (.bn a0) := fun _ => branch _ _
theorem bge : ∀ a0, Statement (.bge a0) := fun _ => branch _ _
theorem blt : ∀ a0, Statement (.blt a0) := fun _ => branch _ _
theorem bra : ∀ a0, Statement (.bra a0) := fun _ => branch _ _
theorem add : ∀ a0 a1 a2, Statement (.add a0 a1 a2) := fun _ _ _ => register _ _ _ _
theorem addc : ∀ a0 a1 a2, Statement (.addc a0 a1 a2) := fun _ _ _ => register _ _ _ _
theorem sub : ∀ a0 a1 a2, Statement (.sub a0 a1 a2) := fun _ _ _ => register _ _ _ _
theorem subc : ∀ a0 a1 a2, Statement (.subc a0 a1 a2) := fun _ _ _ => register _ _ _ _
theorem dadd : ∀ a0 a1 a2, Statement (.dadd a0 a1 a2) := fun _ _ _ => register _ _ _ _
theorem cmp : ∀ a0 a1 a2, Statement (.cmp a0 a1 a2) := fun _ _ _ => register _ _ _ _
theorem xor : ∀ a0 a1 a2, Statement (.xor a0 a1 a2) := fun _ _ _ => register _ _ _ _
theorem and : ∀ a0 a1 a2, Statement (.and a0 a1 a2) := fun _ _ _ => register _ _ _ _
theorem or : ∀ a0 a1 a2, Statement (.or a0 a1 a2) := fun _ _ _ => register _ _ _ _
theorem bit : ∀ a0 a1 a2, Statement (.bit a0 a1 a2) := fun _ _ _ => register _ _ _ _
theorem bic : ∀ a0 a1 a2, Statement (.bic a0 a1 a2) := fun _ _ _ => register _ _ _ _
theorem bis : ∀ a0 a1 a2, Statement (.bis a0 a1 a2) := fun _ _ _ => register _ _ _ _
theorem mov : ∀ a0 a1 a2, Statement (.mov a0 a1 a2) := by
  intro a0 a1 a2
  change (0x4C#8 ++ 0#1 ++ BitVec.ofBool a0.toBit ++ a1 ++ a2) &&& (BitVec.allOnes 8 ++ BitVec.allOnes 1 ++ 0#1 ++ 0#3 ++ 0#3) = _
  simp only [append_and_append, and_ones, and_zeros]
  rfl
theorem swap : ∀ a0 a1, Statement (.swap a0 a1) := by
  intro a0 a1
  change (0x4C#8 ++ 1#1 ++ 0#1 ++ a0 ++ a1) &&& (BitVec.allOnes 8 ++ BitVec.allOnes 1 ++ 0#1 ++ 0#3 ++ 0#3) = _
  simp only [append_and_append, and_ones, and_zeros]
  rfl
theorem sra : ∀ a0 a1, Statement (.sra a0 a1) := fun _ _ => shift _ _ _
theorem rrc : ∀ a0 a1, Statement (.rrc a0 a1) := fun _ _ => shift _ _ _
theorem swpb : ∀ a0, Statement (.swpb a0) := fun _ => shift _ _ _
theorem sxt : ∀ a0, Statement (.sxt a0) := fun _ => shift _ _ _
theorem setpri : ∀ a0, Statement (.setpri a0) := by
  intro a0
  change (0b0100110110000#13 ++ a0) &&& (BitVec.allOnes 13 ++ 0#3) = _
  simp only [append_and_append, and_ones, and_zeros]
  rfl
theorem svc : ∀ a0, Statement (.svc a0) := by
  intro a0
  change (0x4D9#12 ++ a0) &&& (BitVec.allOnes 12 ++ 0#4) = _
  simp only [append_and_append, and_ones, and_zeros]
  rfl
theorem setcc : ∀ a0, Statement (.setcc a0) := by
  intro a0
  change (0b01001101101#11 ++ a0) &&& (BitVec.allOnes 11 ++ 0#5) = _
  simp only [append_and_append, and_ones, and_zeros]
  rfl
theorem clrcc : ∀ a0, Statement (.clrcc a0) := by
  intro a0
  change (0b0100110111#10 ++ 0#1 ++ a0) &&& (BitVec.allOnes 10 ++ 0#1 ++ 0#5) = _
  simp only [append_and_append, and_ones, and_zeros]
  rfl
theorem cex : ∀ a0 a1 a2, Statement (.cex a0 a1 a2) := by
  intro a0 a1 a2
  change (0b010100#6 ++ a0.toBits ++ a1 ++ a2) &&& (BitVec.allOnes 6 ++ 0#4 ++ 0#3 ++ 0#3) = _
  simp only [append_and_append, and_ones, and_zeros]
  rfl
theorem ld : ∀ a0 a1 a2 a3 a4 a5, Statement (.ld a0 a1 a2 a3 a4 a5) := fun _ _ _ _ _ _ => indirect _ _ _ _ _ _ _
theorem st : ∀ a0 a1 a2 a3 a4 a5, Statement (.st a0 a1 a2 a3 a4 a5) := fun _ _ _ _ _ _ => indirect _ _ _ _ _ _ _
theorem movl : ∀ a0 a1, Statement (.movl a0 a1) := fun _ _ => immediate _ _ _
theorem movlz : ∀ a0 a1, Statement (.movlz a0 a1) := fun _ _ => immediate _ _ _
theorem movls : ∀ a0 a1, Statement (.movls a0 a1) := fun _ _ => immediate _ _ _
theorem movh : ∀ a0 a1, Statement (.movh a0 a1) := fun _ _ => immediate _ _ _
theorem ldr : ∀ a0 a1 a2 a3, Statement (.ldr a0 a1 a2 a3) := fun _ _ _ _ => relative _ _ _ _ _
theorem str : ∀ a0 a1 a2 a3, Statement (.str a0 a1 a2 a3) := fun _ _ _ _ => relative _ _ _ _ _
theorem undefined : Statement (.undefined) := rfl

end Sys2Proof.Laws.EncodesItsRow
end

