-- ==== Sys2Proof/Tests/Slice0.lean ====
section
/-! SUPPORT. The model's own tests. Expected results come from the vectors of spec/95_test_vectors.md (named A1, L1, M1, S1,
LS1, B1, H1, ... in the comments) and from the formats of spec/30_encoding.md; then a witness for every statement of
Sys2Proof/Certificates/Slice0/Obligations.lean that has hypotheses. -/

open Sys2Proof Sys2Proof.Machine Sys2Proof.Claims

namespace Sys2Proof.Tests

/-! ## Ill-formed terms are refused -/

theorem test_wf_bl_odd : ¬ (Instr.bl 3).WellFormed := by decide
theorem test_wf_bl_high : ¬ (Instr.bl 8192).WellFormed := by decide
theorem test_wf_bl_low : ¬ (Instr.bl (-8194)).WellFormed := by decide
theorem test_wf_branch_odd : ¬ (Instr.bne 1).WellFormed := by decide
theorem test_wf_branch_high : ¬ (Instr.beq 1024).WellFormed := by decide
theorem test_wf_branch_low : ¬ (Instr.bra (-1026)).WellFormed := by decide
theorem test_wf_ldr_high : ¬ (Instr.ldr 64 .word 0 1).WellFormed := by decide
theorem test_wf_str_low : ¬ (Instr.str (-65) .byte 0 1).WellFormed := by decide
/-- Every branch of the check, one too far each. -/
theorem test_wf_each_branch :
    ¬ (Instr.beq 1).WellFormed ∧ ¬ (Instr.bc 1).WellFormed ∧ ¬ (Instr.bnc 1).WellFormed ∧ ¬ (Instr.bn 1).WellFormed ∧
    ¬ (Instr.bge 1).WellFormed ∧ ¬ (Instr.blt 1).WellFormed ∧ ¬ (Instr.bra 1).WellFormed ∧
    ¬ (Instr.str 64 .word 0 1).WellFormed ∧ ¬ (Instr.ldr (-65) .word 0 1).WellFormed := by decide

/-! ## Words written out bit by bit (30_encoding.md R67 to R78) -/

/-- F-BL and F-BR. -/
theorem test_decode_branches :
    decodeWord 0b0001111111111111#16 = .bl (-2) ∧
    decodeWord 0b0010000000000010#16 = .beq 4 ∧
    decodeWord 0b0010011111111101#16 = .bne (-6) ∧
    decodeWord 0b0010100111111111#16 = .bc 1022 ∧
    decodeWord 0b0010111000000000#16 = .bnc (-1024) ∧
    decodeWord 0b0011000000000001#16 = .bn 2 ∧
    decodeWord 0b0011010000000011#16 = .bge 6 ∧
    decodeWord 0b0011101111111111#16 = .blt (-2) ∧
    decodeWord 0b0011110000000000#16 = .bra 0 := by decide

/-- F-REG: RC in bit 7, WB in bit 6, SRC, DST. -/
theorem test_decode_register :
    decodeWord 0b0100000010001001#16 = .add .word (.const 1) 1 ∧
    decodeWord 0b0100000101110010#16 = .addc .byte (.reg 6) 2 ∧
    decodeWord 0b0100001000001000#16 = .sub .word (.reg 1) 0 ∧
    decodeWord 0b0100001111000011#16 = .subc .byte (.const 0) 3 ∧
    decodeWord 0b0100010001001000#16 = .dadd .byte (.reg 1) 0 ∧
    decodeWord 0b0100010110011000#16 = .cmp .word (.const 3) 0 ∧
    decodeWord 0b0100011010111000#16 = .xor .word (.const 7) 0 ∧
    decodeWord 0b0100011111000000#16 = .and .byte (.const 0) 0 ∧
    decodeWord 0b0100100001001000#16 = .or .byte (.reg 1) 0 ∧
    decodeWord 0b0100100110100101#16 = .bit .word (.const 4) 5 ∧
    decodeWord 0b0100101000001000#16 = .bic .word (.reg 1) 0 ∧
    decodeWord 0b0100101101001111#16 = .bis .byte (.reg 1) 7 := by decide

/-- F-MS and F-SH, with the bit SWAP, SWPB and SXT do not read both ways (R94). -/
theorem test_decode_moves :
    decodeWord 0b0100110001001010#16 = .mov .byte 1 2 ∧
    decodeWord 0b0100110010001010#16 = .swap 1 2 ∧
    decodeWord 0b0100110011001010#16 = .swap 1 2 ∧
    decodeWord 0b0100110101000101#16 = .sra .byte 5 ∧
    decodeWord 0b0100110100001100#16 = .rrc .word 4 ∧
    decodeWord 0b0100110100011011#16 = .swpb 3 ∧
    decodeWord 0b0100110101011011#16 = .swpb 3 ∧
    decodeWord 0b0100110100100110#16 = .sxt 6 ∧
    decodeWord 0b0100110101100110#16 = .sxt 6 := by decide

/-- F-SR by its highest bit set (R74), and F-CEX. -/
theorem test_decode_status :
    decodeWord 0b0100110110000011#16 = .setpri 3 ∧
    decodeWord 0b0100110110011111#16 = .svc 15 ∧
    decodeWord 0b0100110110101000#16 = .setcc 0b01000 ∧
    decodeWord 0b0100110111000100#16 = .clrcc 0b00100 ∧
    decodeWord 0b0100110111111111#16 = .clrcc 0b11111 ∧
    decodeWord 0b0101001110010000#16 = .cex .tr 2 0 := by decide

/-- F-LS: PRPO, DEC, INC, WB in bits 9 to 6; F-RL: the offset in bits 13 to 7. -/
theorem test_decode_memory :
    decodeWord 0b0101101010001010#16 = .ld true false true .word 1 2 ∧
    decodeWord 0b0101110101100111#16 = .st false true false .byte 4 7 ∧
    decodeWord 0b1001111111010101#16 = .ldr 63 .byte 2 5 ∧
    decodeWord 0b1111111000100010#16 = .str (-4) .word 4 2 := by decide

/-- F-MI: the byte in bits 10 to 3. -/
theorem test_decode_immediates :
    decodeWord 0b0110011001101000#16 = .movl 0xCD 0 ∧
    decodeWord 0b0110100000111001#16 = .movlz 7 1 ∧
    decodeWord 0b0111011001101010#16 = .movls 0xCD 2 ∧
    decodeWord 0b0111111001101011#16 = .movh 0xCD 3 := by decide

/-- One word of each row of the table of R93, and the one `encode` writes. -/
theorem test_decode_undefined :
    decodeWord 0x4D57#16 = .undefined ∧ decodeWord 0x4D28#16 = .undefined ∧ decodeWord 0x4D77#16 = .undefined ∧
    decodeWord 0x4D38#16 = .undefined ∧ decodeWord 0x4D8F#16 = .undefined ∧ decodeWord 0x4FFF#16 = .undefined ∧
    decodeWord 0x5400#16 = .undefined ∧ encode .undefined = 0x4D10#16 := by decide

/-- A string of one byte holds no instruction; the bytes come low first (R46). -/
theorem test_decode_bytes :
    (decodeBytes [0x89]).toOption = none ∧ (decodeBytes [0x89, 0x40, 0x55]).toOption = some (.add .word (.const 1) 1, [0x55]) ∧
    decodeTableWord 16 0x4089 = some (.add .word (.const 1) 1) := by decide

/-! ## One step -/

def flags (c z n v : Bool) : Flags := { c := c, z := z, n := n, v := v, slp := false }

/-- A word at 0x0100 about to be computed, with some registers and the flags set. -/
def slot (w : Nat) (rs : List (RegIdx × Word)) (f : Flags := State.reset.flags) : State :=
  ((rs.foldl (fun (s : State) p => s.setReg p.1 p.2) { State.reset with flags := f }).setReg pcIdx 0x0100).withFetchWord 16 w

/-- The state after one step, if it is a next state. -/
def after (s : State) : Option State :=
  match step s with
  | .next t => some t
  | .fault _ => none
  | .refused _ => none

/-- A WAIT_1 cycle about to commit the access of an instruction. -/
def committing (i : Instr) (c : MemCtrl) (a : Word) (rs : List (RegIdx × Word)) (dm : Memory) : State :=
  rs.foldl (fun (s : State) p => s.setReg p.1 p.2)
    { State.reset with
      running := true, cycleState := .wait1, dctrl := c, dmar := a, dm := dm
      prev := { opcode := encode i, instr := i, pending := true, addr := some 0x0100 } }

/-- A1. -/
theorem test_add_overflow : (after (slot 0x4089 [(1, 0x7fff)])).map (fun t => (t.reg 1, t.flags)) = some (0x8000, flags false false true true) := by
  decide
/-- A5. -/
theorem test_add_byte_keeps_high : (after (slot 0x40c9 [(1, 0x12ff)])).map (fun t => (t.reg 1, t.flags)) = some (0x1200, flags true true false false) := by
  decide
/-- A6. -/
theorem test_addc_carry_in : (after (slot 0x418a [(2, 0x1)] (flags true false false false))).map (fun t => (t.reg 2, t.flags)) = some (0x3, flags false false false false) := by
  decide
/-- A7. -/
theorem test_addc_wraps : (after (slot 0x4182 [(2, 0xffff)] (flags true false false false))).map (fun t => (t.reg 2, t.flags)) = some (0x0, flags true true false false) := by
  decide
/-- A10. -/
theorem test_sub_zero_has_no_carry : (after (slot 0x4280 [(0, 0x5)])).map (fun t => (t.reg 0, t.flags)) = some (0x5, flags false false false false) := by
  decide
/-- A15. -/
theorem test_sub_byte_borrow : (after (slot 0x42c8 [(0, 0x1200)])).map (fun t => (t.reg 0, t.flags)) = some (0x12ff, flags false false true false) := by
  decide
/-- A17. -/
theorem test_subc_zero_has_carry : (after (slot 0x4380 [(0, 0x5)] (flags true false false false))).map (fun t => (t.reg 0, t.flags)) = some (0x5, flags true false false false) := by
  decide
/-- A16. -/
theorem test_subc_borrow : (after (slot 0x4308 [(0, 0x5), (1, 0x3)])).map (fun t => (t.reg 0, t.flags)) = some (0x1, flags true false false false) := by
  decide
/-- A19. -/
theorem test_cmp_writes_flags_only : (after (slot 0x4598 [(0, 0x5)])).map (fun t => (t.reg 0, t.flags)) = some (0x5, flags true false false false) := by
  decide
/-- A25. -/
theorem test_dadd_byte : (after (slot 0x4448 [(0, 0x1299), (1, 0x1)])).map (fun t => (t.reg 0, t.flags)) = some (0x1200, flags true true false false) := by
  decide
/-- A28. -/
theorem test_dadd_clears_n_and_v : (after (slot 0x4408 [(0, 0x1234), (1, 0x4321)] (flags false false true true))).map (fun t => (t.reg 0, t.flags)) = some (0x5555, flags false false false false) := by
  decide
/-- L2. -/
theorem test_xor_ones : (after (slot 0x46b8 [(0, 0xff)])).map (fun t => (t.reg 0, t.flags)) = some (0xff00, flags false false true false) := by
  decide
/-- L4. -/
theorem test_and_byte : (after (slot 0x47c0 [(0, 0x80ff)])).map (fun t => (t.reg 0, t.flags)) = some (0x8000, flags false true false false) := by
  decide
/-- L5. -/
theorem test_or_byte : (after (slot 0x4848 [(0, 0x12f0), (1, 0xff0f)])).map (fun t => (t.reg 0, t.flags)) = some (0x12ff, flags false false true false) := by
  decide
/-- L7. -/
theorem test_bit_top : (after (slot 0x4908 [(0, 0x8000), (1, 0xf)])).map (fun t => (t.reg 0, t.flags)) = some (0x8000, flags false false true false) := by
  decide
/-- L10: the full 16-bit source is the index. -/
theorem test_bit_index_out_of_range :
    (after (slot 0x4908 [(0, 0xffff), (1, 0x0100)])).map (fun t => t.failures) =
      some [{ reason := .bitIndexOutOfRange, addr := some 0x0100, opcode := 0x4908, cycle := 1 }] := by
  decide
/-- L12. -/
theorem test_bic_keeps_c_and_v : (after (slot 0x4a08 [(1, 0x3)] (flags true false false true))).map (fun t => (t.reg 0, t.flags)) = some (0x0, flags true true false true) := by
  decide
/-- L11. -/
theorem test_bic_one : (after (slot 0x4a88 [(0, 0xffff)])).map (fun t => (t.reg 0, t.flags)) = some (0xfffd, flags false false true false) := by
  decide
/-- L14. -/
theorem test_bis_byte : (after (slot 0x4b48 [(1, 0x7)])).map (fun t => (t.reg 0, t.flags)) = some (0x80, flags false false true false) := by
  decide
/-- M1. -/
theorem test_mov_byte : (after (slot 0x4c4a [(1, 0x1234), (2, 0xabcd)] (flags true true true true))).map (fun t => (t.reg 2, t.flags)) = some (0xab34, flags true true true true) := by
  decide
/-- M2. -/
theorem test_swap_ignores_bit_6 : (after (slot 0x4cca [(1, 0x1111), (2, 0x2222)])).map (fun t => (t.reg 1, t.reg 2)) = some (0x2222, 0x1111) := by
  decide
/-- M5. -/
theorem test_sra_keeps_c : (after (slot 0x4d00 [(0, 0x1)] (flags true false false false))).map (fun t => (t.reg 0, t.flags)) = some (0x0, flags true true false false) := by
  decide
/-- M6. -/
theorem test_sra_byte : (after (slot 0x4d40 [(0, 0x1280)])).map (fun t => (t.reg 0, t.flags)) = some (0x12c0, flags false false true false) := by
  decide
/-- M7. -/
theorem test_rrc_carry_in : (after (slot 0x4d08 [] (flags true false false false))).map (fun t => (t.reg 0, t.flags)) = some (0x8000, flags false false true false) := by
  decide
/-- M9. -/
theorem test_rrc_byte : (after (slot 0x4d48 [(0, 0xab00)] (flags true false false false))).map (fun t => (t.reg 0, t.flags)) = some (0xab80, flags false false true false) := by
  decide
/-- M10. -/
theorem test_swpb : (after (slot 0x4d58 [(0, 0x1234)])).map (fun t => (t.reg 0, t.flags)) = some (0x3412, flags false false false false) := by
  decide
/-- M11. -/
theorem test_sxt_negative : (after (slot 0x4d20 [(0, 0x80)])).map (fun t => (t.reg 0, t.flags)) = some (0xff80, flags false false true false) := by
  decide
/-- M13. -/
theorem test_sxt_positive : (after (slot 0x4d20 [(0, 0xff7f)])).map (fun t => (t.reg 0, t.flags)) = some (0x7f, flags false false false false) := by
  decide
/-- M14. -/
theorem test_movl : (after (slot 0x6668 [(0, 0xab12)])).map (fun t => t.reg 0) = some 0xabcd := by
  decide
/-- M15. -/
theorem test_movlz : (after (slot 0x6e68 [(0, 0xab12)])).map (fun t => t.reg 0) = some 0xcd := by
  decide
/-- M16. -/
theorem test_movls : (after (slot 0x7668 [])).map (fun t => t.reg 0) = some 0xffcd := by
  decide
/-- M17. -/
theorem test_movh : (after (slot 0x7e68 [(0, 0x1234)])).map (fun t => t.reg 0) = some 0xcd34 := by
  decide
/-- S2. -/
theorem test_setcc_all : (after (slot 0x4dbf [])).map (fun t => t.flags) =
    some { c := true, z := true, n := true, v := true, slp := true } := by
  decide
/-- S3. -/
theorem test_clrcc_n : (after (slot 0x4dc4 [] { c := true, z := true, n := true, v := true, slp := true })).map (fun t => t.flags) =
    some { c := true, z := true, n := false, v := true, slp := true } := by
  decide
/-- S9 and S10: the entries; the fetch of the same cycle takes the first. -/
theorem test_cex : (after (slot 0x5011 [] (flags false true false false))).map (fun t => t.bq) = some [false, true] ∧
    (after (slot 0x5011 [])).map (fun t => (t.bq, t.ir, t.irTag)) = some ([true, false], 0x0000, none) := by
  decide
/-- S13: the fault, with the queue filled. -/
theorem test_cex_overflow :
    (after { slot 0x53bf [] with bq := List.replicate 26 false }).map (fun t => (t.faulted, t.bq.length)) =
      some (some .bqOverflow, 32) := by
  decide
/-- S6. -/
theorem test_setpri : (after (slot 0x4d83 [])).map (fun t => t.failures) =
    some [{ reason := .unimplementedSetpri, addr := some 0x0100, opcode := 0x4D83, cycle := 1 }] := by
  decide
/-- S7. -/
theorem test_svc : (after (slot 0x4d9f [])).map (fun t => t.failures.map fun r => (r.reason.code, r.opcode)) =
    some [(2, 0x4D9F)] := by
  decide
/-- S8. -/
theorem test_undefined : (after (slot 0x4e00 [])).map (fun t => t.failures.map fun r => (r.reason.code, r.opcode)) =
    some [(0, 0x4E00)] := by
  decide
/-- LS2: the compute phase, with the wrap of R52; LS14: INC and DEC both set. -/
theorem test_ld_compute :
    (after (slot 0x5b0a [(1, 0)])).map (fun t => (t.reg 1, t.dmar, t.dctrl, t.prev.pending)) =
      some (0xFFFE, 0xFFFE, .readWord, true) ∧
    (after (slot 0x5988 [(1, 0x10)])).map (fun t => (t.reg 1, t.faulted)) =
      some (0x10, some (.ldStIncAndDec 0x5988)) := by
  decide
/-- LS3: the commit phase. -/
theorem test_ld_byte_commit :
    (after (committing (.ld false false true .byte 1 2) .readByte 0x21 [(2, 0x7700)] [(0x21, 0x5A)])).map
      (fun t => (t.reg 2, t.prev.pending)) = some (0x775A, false) := by
  decide
/-- LS6: the compute phase; H5: a decoded ST to R7 has the word fetched in its slot dropped. -/
theorem test_st_compute :
    (after (slot 0x5c9a [(2, 0x10)])).map (fun t => (t.reg 2, t.dmar, t.dctrl)) = some (0x12, 0x10, .writeWord) ∧
    (after (slot 0x5c07 [])).map (fun t => (t.irTag, t.flushPending)) = some (none, false) := by
  decide
/-- LS7: the data is read at the commit, after the base update. -/
theorem test_st_commit :
    (after (committing (.st false false true .word 1 1) .writeWord 0x40 [(1, 0x42)] [])).map (fun t => t.dm) =
      some [(0x40, 0x42)] := by
  decide
/-- LS10. -/
theorem test_ldr_compute : (after (slot 0xa015 [(2, 0x0100)])).map (fun t => (t.reg 2, t.dmar)) = some (0x0100, 0x00C0) := by
  decide
/-- LS13. -/
theorem test_ldr_misaligned :
    (after (committing (.ldr 1 .word 2 5) .readWord 0x11 [(2, 0x10)] [])).map (fun t => (t.reg 5, t.faulted)) =
      some (0, some (.misalignedData 0x11)) := by
  decide
/-- LS12: the compute phase. -/
theorem test_str_compute : (after (slot 0xfe22 [(2, 0x10)])).map (fun t => (t.reg 2, t.dmar)) = some (0x10, 0x0C) := by
  decide
/-- LS12: the commit phase. -/
theorem test_str_commit :
    (after (committing (.str (-4) .word 4 2) .writeWord 0x0C [(4, 0x1234)] [])).map (fun t => t.dm) =
      some [(0x0C, 0x34), (0x0D, 0x12)] := by
  decide
/-! The branches (46_branch.md R147 to R157; B1, B2, B3, B7): the target from 0x0100, and the word at 0x0102 dropped. -/

theorem test_beq_taken : (after (slot 0x2002 [] (flags false true false false))).map (fun t => (t.reg 7, t.ir, t.irTag)) = some (0x106, 0x0000, none) := by
  decide
theorem test_beq_not_taken : (after (slot 0x2002 [])).map (fun t => (t.reg 7, t.irTag)) = some (0x104, some 0x102) := by
  decide
theorem test_bne_taken : (after (slot 0x27fd [])).map (fun t => (t.reg 7, t.ir, t.irTag)) = some (0xfc, 0x0000, none) := by
  decide
theorem test_bne_not_taken : (after (slot 0x27fd [] (flags false true false false))).map (fun t => (t.reg 7, t.irTag)) = some (0x104, some 0x102) := by
  decide
theorem test_bc_taken : (after (slot 0x2801 [] (flags true false false false))).map (fun t => (t.reg 7, t.ir, t.irTag)) = some (0x104, 0x0000, none) := by
  decide
theorem test_bc_not_taken : (after (slot 0x2801 [])).map (fun t => (t.reg 7, t.irTag)) = some (0x104, some 0x102) := by
  decide
theorem test_bnc_taken : (after (slot 0x2c01 [])).map (fun t => (t.reg 7, t.ir, t.irTag)) = some (0x104, 0x0000, none) := by
  decide
theorem test_bnc_not_taken : (after (slot 0x2c01 [] (flags true false false false))).map (fun t => (t.reg 7, t.irTag)) = some (0x104, some 0x102) := by
  decide
theorem test_bn_taken : (after (slot 0x3001 [] (flags false false true false))).map (fun t => (t.reg 7, t.ir, t.irTag)) = some (0x104, 0x0000, none) := by
  decide
theorem test_bn_not_taken : (after (slot 0x3001 [])).map (fun t => (t.reg 7, t.irTag)) = some (0x104, some 0x102) := by
  decide
theorem test_bge_taken : (after (slot 0x3401 [] (flags false false true true))).map (fun t => (t.reg 7, t.ir, t.irTag)) = some (0x104, 0x0000, none) := by
  decide
theorem test_bge_not_taken : (after (slot 0x3401 [] (flags false false false true))).map (fun t => (t.reg 7, t.irTag)) = some (0x104, some 0x102) := by
  decide
theorem test_blt_taken : (after (slot 0x3801 [] (flags false false true false))).map (fun t => (t.reg 7, t.ir, t.irTag)) = some (0x104, 0x0000, none) := by
  decide
theorem test_blt_not_taken : (after (slot 0x3801 [] (flags false false true true))).map (fun t => (t.reg 7, t.irTag)) = some (0x104, some 0x102) := by
  decide
theorem test_bra_zero_offset : (after (slot 0x3c00 [])).map (fun t => (t.reg 7, t.ir, t.irTag)) = some (0x102, 0x0000, none) := by
  decide
/-- B5, moved to 0x0100. -/
theorem test_bl : (after (slot 0x0005 [])).map (fun t => (t.reg 5, t.reg 7, t.irTag)) = some (0x0102, 0x010C, none) := by
  decide
/-- B6: the no-op. -/
theorem test_bl_zero : (after (slot 0x0000 [(5, 0x1234)])).map (fun t => (t.reg 5, t.reg 7, t.irTag)) =
    some (0x1234, 0x0104, some 0x0102) := by
  decide
/-- H4: SWAP R7,R7 flushes. -/
theorem test_swap_pc_flushes : (after (slot 0x4cbf [])).map (fun t => (t.reg 7, t.irTag)) = some (0x0104, none) := by
  decide
/-- H12: the zero-fetch variant. -/
theorem test_zero_fetch_halts :
    (match (slot 0x6809 []).stepWith { Config.params with haltOnZeroFetch := true } with
      | .next t => some (t.running, t.reg 1, t.reg 7)
      | _ => none) = some (false, 1, 0x0104) := by
  decide
/-- H10: a breakpoint at a taken branch rolls the target back by 4. -/
theorem test_breakpoint_after_branch :
    (after { slot 0x3c02 [] with breakpoint := some 0x0100 }).map (fun t => (t.running, t.reg 7)) = some (false, 0x0102) := by
  decide

/-! ## Witnesses: a state and operands that meet the hypotheses of each statement -/

theorem witness_DecodeEncodeRoundTrip :
    (Instr.bl 8190).WellFormed ∧ (Instr.bl (-8192)).WellFormed ∧ (Instr.beq 1022).WellFormed ∧
    (Instr.bra (-1024)).WellFormed ∧ (Instr.ldr 63 .word 1 2).WellFormed ∧ (Instr.str (-64) .byte 1 2).WellFormed := by
  decide

theorem witness_EncodeAfterDecode : decodeWord 0x4CCA#16 ≠ .undefined := by decide

theorem witness_BranchAndLinkOffsets :
    (0x23FF#16).extractLsb' 0 10 = 0x3FF#10 ∧ (branchOffset 0x23FF#16).toInt = -2 ∧
    (0x2001#16).extractLsb' 0 10 = 0x001#10 ∧ (branchOffset 0x2001#16).toInt = 2 ∧
    (branchOffset 0x2200#16).toInt = -1024 ∧ (branchOffset 0x21FF#16).toInt = 1022 ∧
    (linkOffset 0x1000#16).toInt = -8192 ∧ (linkOffset 0x0FFF#16).toInt = 8190 := by
  decide

theorem witness_AdditionOverflowIsSigned :
    (∃ t, exec (.add .word (.const 1) 1) (slot 0x4089 [(1, 0x7FFF)]) = .next t) ∧
    (∃ t, exec (.addc .byte (.reg 2) 1) (slot 0x4151 [(1, 0x7F), (2, 0x80)] (flags true false false false)) = .next t) :=
  ⟨⟨_, rfl⟩, ⟨_, rfl⟩⟩

theorem witness_DaddIsDecimalAddition :
    (∀ i < bits .word / 4, digit i ((slot 0x4488 [(0, 0x9999)]).reg 0).toNat ≤ 9 ∧
      digit i ((slot 0x4488 [(0, 0x9999)]).operand (.const 1)).toNat ≤ 9) ∧
    (∃ t, exec (.dadd .word (.const 1) 0) (slot 0x4488 [(0, 0x9999)]) = .next t) ∧
    (∀ i < bits .byte / 4, digit i ((slot 0x4448 [(0, 0x1299), (1, 1)]).reg 0).toNat ≤ 9 ∧
      digit i ((slot 0x4448 [(0, 0x1299), (1, 1)]).operand (.reg 1)).toNat ≤ 9) :=
  ⟨by decide, ⟨_, rfl⟩, by decide⟩

theorem witness_BitIndexInRange :
    ((slot 0x4908 [(1, 15)]).operand (.reg 1)).toNat < bits .word ∧
    ((slot 0x4948 [(1, 7)]).operand (.reg 1)).toNat < bits .byte := by decide

theorem witness_BitIndexOutOfRangeFails :
    bits .word ≤ ((slot 0x49A8 []).operand (.const 5)).toNat ∧ bits .byte ≤ ((slot 0x49E0 []).operand (.const 4)).toNat := by
  decide

/-- A machine with some decisions queued. -/
def queued (n : Nat) : State := { State.reset with bq := List.replicate n true }

theorem witness_CexQueuesDecisions :
    (queued 18).bq.length + (7 : BitVec 3).toNat + (7 : BitVec 3).toNat ≤ 32 ∧
    (queued 32).bq.length + (0 : BitVec 3).toNat + (0 : BitVec 3).toNat ≤ 32 ∧
    (queued 0).bq.length + (7 : BitVec 3).toNat + (7 : BitVec 3).toNat ≤ ({ Config.params with bqCapacity := 14 }).bqCapacity := by
  decide

theorem witness_CexOverflowFaults :
    (queued 19).bq.length ≤ 32 ∧ 32 < (queued 19).bq.length + (7 : BitVec 3).toNat + (7 : BitVec 3).toNat ∧
    (queued 32).bq.length ≤ 32 ∧ 32 < (queued 32).bq.length + (0 : BitVec 3).toNat + (1 : BitVec 3).toNat ∧
    (queued 1).bq.length ≤ ({ Config.params with bqCapacity := 14 }).bqCapacity ∧
    ({ Config.params with bqCapacity := 14 }).bqCapacity <
      (queued 1).bq.length + (7 : BitVec 3).toNat + (7 : BitVec 3).toNat := by decide

theorem witness_LdAndStCompute : (true && false) = false ∧ (false && true) = false ∧ (false && false) = false := by decide

theorem witness_IncAndDecFaults :
    (slot 0x5988 []).Live ∧ (slot 0x5988 []).cycleState = .wait0 ∧
    (slot 0x5988 []).cur.instr = .ld false true true .word 1 0 ∧
    (slot 0x5FC8 []).Live ∧ (slot 0x5FC8 []).cycleState = .wait0 ∧
    (slot 0x5FC8 []).cur.instr = .st true true true .byte 1 0 := by decide

/-- A word load at the top of memory into R7, a byte load at an odd address. -/
def loading (c : MemCtrl) (a : Word) : State :=
  committing (.ld false false false .word 1 7) c a [(7, 0x0100)] [(0xFFFE, 0xCD), (0xFFFF, 0xAB)]

/-- The same machine resumed from a halt between compute and commit. -/
def resumed (s : State) : State := { s with cycleState := .start }

theorem witness_CommitLoads :
    ReadyCommit (resumed (loading .readWord 0xFFFE)) ∧ (resumed (loading .readWord 0xFFFE)).prev.pending = true ∧
    ReadyCommit (loading .readWord 0xFFFE) ∧ (loading .readWord 0xFFFE).prev.pending = true ∧
    (7 : RegIdx) = (loading .readWord 0xFFFE).prev.instr.fields.dst ∧ (loading .readWord 0xFFFE).dctrl = .readWord ∧
    (loading .readWord 0xFFFE).dmar.getLsbD 0 = false ∧
    ReadyCommit (loading .readByte 0xFFFF) ∧ (loading .readByte 0xFFFF).prev.pending = true ∧
    (7 : RegIdx) = (loading .readByte 0xFFFF).prev.instr.fields.dst ∧ (loading .readByte 0xFFFF).dctrl = .readByte := by
  decide

/-- A store whose data register is R7. -/
def storing (c : MemCtrl) (a : Word) : State :=
  committing (.st false false false .word 7 1) c a [(7, 0x0100)] [(0x10, 0xCD)]

theorem witness_CommitStores :
    ReadyCommit (resumed (storing .writeWord 0xFFFE)) ∧ (resumed (storing .writeWord 0xFFFE)).prev.pending = true ∧
    ReadyCommit (storing .writeWord 0xFFFE) ∧ (storing .writeWord 0xFFFE).prev.pending = true ∧
    (0x0102 : Word) = atCommit (storing .writeWord 0xFFFE) (storing .writeWord 0xFFFE).prev.instr.fields.src ∧
    (storing .writeWord 0xFFFE).dctrl = .writeWord ∧ (storing .writeWord 0xFFFE).dmar.getLsbD 0 = false ∧
    ReadyCommit (storing .writeByte 0xFFFF) ∧ (storing .writeByte 0xFFFF).prev.pending = true ∧
    (0x0102 : Word) = atCommit (storing .writeByte 0xFFFF) (storing .writeByte 0xFFFF).prev.instr.fields.src ∧
    (storing .writeByte 0xFFFF).dctrl = .writeByte := by decide

theorem witness_MisalignedDataFaults :
    ReadyCommit (resumed (loading .readWord 0xFFFF)) ∧ (resumed (loading .readWord 0xFFFF)).prev.pending = true ∧
    ReadyCommit (loading .readWord 0xFFFF) ∧ (loading .readWord 0xFFFF).prev.pending = true ∧
    (loading .readWord 0xFFFF).dctrl = .readWord ∧ (loading .readWord 0xFFFF).dmar.getLsbD 0 = true ∧
    ReadyCommit (storing .writeWord 0x0001) ∧ (storing .writeWord 0x0001).prev.pending = true ∧
    (storing .writeWord 0x0001).dctrl = .writeWord ∧ (storing .writeWord 0x0001).dmar.getLsbD 0 = true := by decide

theorem witness_DataMemoryLittleEndian : (0x0000 : Word).getLsbD 0 = false ∧ (0xFFFE : Word).getLsbD 0 = false := by decide

theorem witness_MixedWidthAccess : (0xFFFE : Word).getLsbD 0 = false ∧ (0x0000 : Word).getLsbD 0 = false := by decide

theorem witness_LoadReachesNextCompute :
    ReadyWait0 (slot 0x5B0A [(1, 0)]) ∧
    LoadsFrom (slot 0x5B0A [(1, 0)]).cur.instr (slot 0x5B0A [(1, 0)]) .word 2 0xFFFE ∧ (0xFFFE : Word).getLsbD 0 = false ∧
    ReadyWait0 (slot 0x58CA [(1, 0x21)]) ∧
    LoadsFrom (slot 0x58CA [(1, 0x21)]).cur.instr (slot 0x58CA [(1, 0x21)]) .byte 2 0x21 ∧
    ReadyWait0 (slot 0x8115 [(2, 0x10)]) ∧
    LoadsFrom (slot 0x8115 [(2, 0x10)]).cur.instr (slot 0x8115 [(2, 0x10)]) .word 5 0x12 ∧ (0x12 : Word).getLsbD 0 = false :=
  ⟨by decide, .inl ⟨true, true, false, 1, by decide⟩, by decide, by decide, .inl ⟨false, false, true, 1, by decide⟩,
    by decide, .inr ⟨2, 2, by decide⟩, by decide⟩

theorem witness_StoreReachesMemory :
    ReadyWait0 (slot 0x5C89 [(1, 0x40)]) ∧
    StoresAt (slot 0x5C89 [(1, 0x40)]).cur.instr (slot 0x5C89 [(1, 0x40)]) .word 1 0x40 ∧ (0x40 : Word).getLsbD 0 = false ∧
    ReadyWait0 (slot 0x5C4A [(2, 0x51)]) ∧
    StoresAt (slot 0x5C4A [(2, 0x51)]).cur.instr (slot 0x5C4A [(2, 0x51)]) .byte 1 0x51 ∧
    ReadyWait0 (slot 0xFE22 [(2, 0x10)]) ∧
    StoresAt (slot 0xFE22 [(2, 0x10)]).cur.instr (slot 0xFE22 [(2, 0x10)]) .word 4 0x0C ∧ (0x0C : Word).getLsbD 0 = false :=
  ⟨by decide, .inl ⟨false, false, true, 1, by decide⟩, by decide, by decide, .inl ⟨false, false, false, 2, by decide⟩,
    by decide, .inr ⟨-4, 2, by decide⟩, by decide⟩

theorem witness_BranchAndLink : (0x0000 : Word) = 0 ∧ (0x000A : Word) ≠ 0 := by decide

theorem witness_TakenBranchDropsNextWord :
    ReadyWait0 (slot 0x3C02 []) ∧ (slot 0x3C02 []).cur.pending = false ∧
    takenOffset (slot 0x3C02 []).flags (slot 0x3C02 []).cur.instr = some 4 ∧
    ReadyWait0 (slot 0x0005 []) ∧ (slot 0x0005 []).cur.pending = false ∧
    takenOffset (slot 0x0005 []).flags (slot 0x0005 []).cur.instr = some 10 := by decide

theorem witness_BranchTargetsKeepParity :
    (0x3C02#16).extractLsb' 13 3 = 0b001#3 ∧ (∃ t, exec (decodeWord 0x3C02#16) (slot 0x3C02 []) = .next t) ∧
    (0x0005#16).extractLsb' 13 3 = 0b000#3 ∧ (∃ t, exec (decodeWord 0x0005#16) (slot 0x0005 []) = .next t) :=
  ⟨by decide, ⟨_, rfl⟩, by decide, ⟨_, rfl⟩⟩

/-- A machine in WAIT_1 with a word in IR and nothing pending. -/
def decoding (w : Word) : State :=
  { State.reset with running := true, cycleState := .wait1, ir := w, irTag := some 0x0100, bq := [false, true] }

theorem witness_StoreToPcDropsNextWord :
    ReadyWait1 (decoding 0x5C07) ∧ (decoding 0x5C07).prev.pending = false ∧ (decoding 0x5C07).breakpoint = none ∧
    ((decoding 0x5C07).reg 7).getLsbD 0 = false ∧ StoresToPc (decodeWord (decoding 0x5C07).ir) ∧
    ReadyWait1 (decoding 0xC007) ∧ (decoding 0xC007).prev.pending = false ∧ (decoding 0xC007).breakpoint = none ∧
    ((decoding 0xC007).reg 7).getLsbD 0 = false ∧ StoresToPc (decodeWord (decoding 0xC007).ir) ∧
    ReadyCommit (decoding 0x5807) ∧ ReadyCommit (resumed (loading .readWord 0xFFFF)) :=
  ⟨by decide, rfl, rfl, rfl, .inl ⟨false, false, false, .word, 0, rfl, rfl⟩,
    by decide, rfl, rfl, rfl, .inr ⟨0, .word, 0, rfl⟩, by decide, by decide⟩

theorem witness_StepRunsCurrentInstruction : (slot 0x4089 []).Live ∧ (slot 0x4089 []).cycleState = .wait0 := by decide

/-- A machine in WAIT_0 that computes the no-op while an ADD is being fetched. -/
def fetching (bq : List Bool) (flush : Bool) : State :=
  { State.reset with
    running := true, cycleState := .wait0, im := [(0x0100, 0x89), (0x0101, 0x40)], imar := 0x0100
    x := #v[0, 0, 0, 0, 0, 0, 0, 0x0102], bq := bq, flushPending := flush }

theorem witness_FetchedWordIsExecuted :
    ReadyWait0 (fetching [false] false) ∧
    ∃ v, exec (fetching [false] false).cur.instr (fetching [false] false).tick = .next v ∧ v.faulted = none ∧
      v.flushPending = false ∧ v.bq.head? ≠ some true ∧ v.cur.pending = false :=
  ⟨by decide, _, rfl, rfl, rfl, by decide, rfl⟩

/-- A delay slot: MOVLZ writes R7, and the fetch in flight is not suppressed. -/
theorem witness_FetchedWordIsExecuted_delay_slot :
    ReadyWait0 (slot 0x6907 []) ∧ (slot 0x6907 []).cur.instr = .movlz 0x20 7 ∧
    ∃ v, exec (slot 0x6907 []).cur.instr (slot 0x6907 []).tick = .next v ∧ v.faulted = none ∧
      v.flushPending = false ∧ v.bq.head? ≠ some true ∧ v.reg 7 = 0x0020 :=
  ⟨by decide, rfl, _, rfl, rfl, rfl, by decide, by decide⟩

theorem witness_FetchAddressLatched :
    ReadyCommit (decoding 0x4089) ∧ (decoding 0x4089).prev.pending = false ∧
    ReadyCommit (loading .readWord 0xFFFE) ∧ (loading .readWord 0xFFFE).prev.pending = true ∧
    ReadyCommit (resumed (loading .readWord 0xFFFE)) := by decide

theorem witness_DecodeCycle :
    (decoding 0x4089).Live ∧ (decoding 0x4089).prev.pending = false ∧ (decoding 0x4089).cycleState ≠ .wait0 ∧
    (decoding 0x4089).cycleState ≠ .start ∧
    (boot [] [] 0x0100 none).Live ∧ (boot [] [] 0x0100 none).prev.pending = false ∧
    (boot [] [] 0x0100 none).cycleState ≠ .wait0 ∧ (boot [] [] 0x0100 none).cycleState = .start := by decide

theorem witness_FetchConsumesOneDecision :
    ReadyWait0 (fetching [true, false] false) ∧ ReadyWait0 (fetching [false] true) ∧
    (∃ v, execWith Config.params (fetching [true, false] false).cur.instr (fetching [true, false] false).tick = .next v ∧
      v.faulted = none) ∧
    (∃ v, execWith Config.params (fetching [false] true).cur.instr (fetching [false] true).tick = .next v ∧
      v.faulted = none) :=
  ⟨by decide, by decide, ⟨_, rfl, rfl⟩, ⟨_, rfl, rfl⟩⟩

/-- MOV into R7, whose flush meets the fetch of its own slot; CEX with a false condition, whose first decision does. -/
theorem witness_FetchConsumesOneDecision_same_slot :
    ReadyWait0 (slot 0x4C0F [(1, 0x0200)]) ∧
    (∃ v, execWith Config.params (slot 0x4C0F [(1, 0x0200)]).cur.instr (slot 0x4C0F [(1, 0x0200)]).tick = .next v ∧
      v.faulted = none ∧ v.bq = [true] ∧ v.reg 7 = 0x0200) ∧
    ReadyWait0 (slot 0x5011 []) ∧
    (∃ v, execWith Config.params (slot 0x5011 []).cur.instr (slot 0x5011 []).tick = .next v ∧
      v.faulted = none ∧ v.bq = [true, true, false]) :=
  ⟨by decide, ⟨_, rfl, rfl, by decide, by decide⟩, by decide, ⟨_, rfl, rfl, by decide⟩⟩

/-- A machine about to fetch from an odd address. -/
def oddFetch : State := { slot 0x4089 [(1, 5)] with imar := 0x0103 }

theorem witness_MisalignedFetchFaults :
    oddFetch.Live ∧ oddFetch.cycleState = .wait0 ∧ oddFetch.imar.getLsbD 0 = true ∧
    ∃ u, exec oddFetch.cur.instr oddFetch.tick = .next u ∧ u.faulted = none :=
  ⟨by decide, rfl, rfl, _, rfl, rfl⟩

/-- A machine whose breakpoint is the instruction in the slot; the breakpoint's low bit is not compared. -/
def atBreakpoint : State := { slot 0x4089 [(1, 5)] with breakpoint := some 0x0101 }

theorem witness_BreakpointHalts :
    atBreakpoint.Live ∧ atBreakpoint.cycleState = .wait0 ∧ atBreakpoint.imar.getLsbD 0 = false ∧
    atBreakpoint.breakpoint = some 0x0101 ∧ atBreakpoint.cur.addr = some 0x0100 ∧
    (0x0100 : Word) = 0x0101 &&& 0xFFFE#16 ∧
    ∃ u, execWith Config.params atBreakpoint.cur.instr atBreakpoint.tick = .next u ∧ u.faulted = none :=
  ⟨by decide, rfl, rfl, rfl, rfl, rfl, _, rfl, rfl⟩

/-- The parameters with the policy `halt`. -/
def haltPolicy : Config.Params := { Config.params with failurePolicy := .halt }

/-- An instruction that fails at the breakpoint, under the policy `halt`. -/
def failsAtBreakpoint : State := { slot 0x4E00 [] with breakpoint := some 0x0100 }

theorem witness_BreakpointHalts_before_failure :
    failsAtBreakpoint.Live ∧ failsAtBreakpoint.cycleState = .wait0 ∧ failsAtBreakpoint.imar.getLsbD 0 = false ∧
    failsAtBreakpoint.breakpoint = some 0x0100 ∧ failsAtBreakpoint.cur.addr = some 0x0100 ∧
    (0x0100 : Word) = 0x0100 &&& 0xFFFE#16 ∧
    ∃ u, execWith haltPolicy failsAtBreakpoint.cur.instr failsAtBreakpoint.tick = .next u ∧ u.faulted = none ∧
      u.failedThisCycle = true :=
  ⟨by decide, rfl, rfl, rfl, rfl, rfl, _, rfl, rfl, rfl⟩

/-- A failing instruction: the failure halt. -/
theorem witness_AlternativeHalts_failure :
    ReadyWait0 (slot 0x4E00 []) ∧
    ∃ u, execWith haltPolicy (slot 0x4E00 []).cur.instr (slot 0x4E00 []).tick = .next u ∧ u.faulted = none ∧ u.failedThisCycle = true :=
  ⟨by decide, _, rfl, rfl, rfl⟩

/-- A zero word ahead and no failure: the zero-fetch halt. -/
theorem witness_AlternativeHalts_zero :
    ReadyWait0 (slot 0x4089 []) ∧ Memory.readWord (slot 0x4089 []).im (slot 0x4089 []).imar = 0x0000#16 ∧
    ∃ u, execWith { Config.params with haltOnZeroFetch := true } (slot 0x4089 []).cur.instr (slot 0x4089 []).tick = .next u ∧
      u.faulted = none ∧ u.failedThisCycle = false :=
  ⟨by decide, by decide, _, rfl, rfl, rfl⟩

/-- Neither: the machine runs on. -/
theorem witness_AlternativeHalts_neither :
    ReadyWait0 (fetching [] false) ∧ Memory.readWord (fetching [] false).im (fetching [] false).imar ≠ 0x0000#16 ∧
    ∃ u, execWith haltPolicy (fetching [] false).cur.instr (fetching [] false).tick = .next u ∧
      u.faulted = none ∧ u.failedThisCycle = false :=
  ⟨by decide, by decide, _, rfl, rfl, rfl⟩

theorem witness_FlagWriters :
    (∃ t, exec (.rrc .word 0) (slot 0x4D08 []) = .next t) ∧ (mayWrite (.rrc .word 0)).v = false ∧
    (∃ t, exec (.dadd .word (.reg 1) 0) (slot 0x4408 []) = .next t) ∧ (mayWrite (.dadd .word (.reg 1) 0)).slp = false ∧
    (∃ t, exec (.setcc 0b01000) (slot 0x4DA8 []) = .next t) ∧ (mayWrite (.setcc 0b01000)).c = false ∧
    (mayWrite (.setcc 0b01000)).z = false ∧ (mayWrite (.setcc 0b01000)).n = false :=
  ⟨⟨_, rfl⟩, rfl, ⟨_, rfl⟩, rfl, ⟨_, rfl⟩, rfl, rfl, rfl⟩

theorem witness_OnlyStoresChangeMemory :
    (∃ t, step (storing .writeWord 0x10) = .next t ∧ Memory.read t.dm 0x10 ≠ Memory.read (storing .writeWord 0x10).dm 0x10) ∧
    (∃ t, step (storing .writeByte 0x11) = .next t ∧ Memory.read t.dm 0x11 ≠ Memory.read (storing .writeByte 0x11).dm 0x11) :=
  ⟨⟨_, rfl, by decide⟩, ⟨_, rfl, by decide⟩⟩

theorem witness_ClockCountsCycles :
    (slot 0x4089 []).Live ∧ State.reset.faulted = none ∧ State.reset.running = false ∧
    (State.reset.raise .bqOverflow).faulted = some .bqOverflow := by decide

theorem witness_FailuresAppendOnly :
    ∃ t, step (slot 0x4D83 []) = .next t ∧ t.failures ≠ (slot 0x4D83 []).failures := ⟨_, rfl, by decide⟩

theorem witness_SleepFlagIsNeverRead :
    (∃ t, step (slot 0x4DA8 []) = .next t) ∧ (∃ r, step (State.reset.raise .bqOverflow) = .fault r) := ⟨⟨_, rfl⟩, ⟨_, rfl⟩⟩

theorem witness_BubbleQueueFifo :
    State.reset.bq = [] ∧ (List.replicate 32 true).length ≤ Config.params.bqCapacity ∧
    (List.replicate 14 true).length ≤ ({ Config.params with bqCapacity := 14 }).bqCapacity := by decide

/-- A booted machine. -/
def booted : State := boot [(0x0100, 0x89), (0x0101, 0x40)] [(0x0010, 0x34)] 0x0100 (some 0x0104)

theorem booted_inv : Inv Config.params booted where
  imWf := by decide
  dmWf := by decide
  queue := by decide
  fetchCtrl := rfl
  untagged _ := rfl
  evenTag _ h := nomatch h
  cur := ⟨by decide, fun _ h => (nomatch h), fun _ => rfl⟩
  prev := ⟨by decide, fun _ h => (nomatch h), fun _ => rfl⟩
  wait0 _ h := nomatch h
  idle h := nomatch h
  between _ _ := ⟨rfl, fun h => (nomatch h)⟩

theorem witness_StepKeepsInvariant :
    Inv Config.params booted ∧ (∃ t, step booted = .next t) ∧ Config.params.Admissible ∧
    (∃ t, booted.stepWith Config.params = .next t) := ⟨booted_inv, ⟨_, rfl⟩, by decide, _, rfl⟩

/-- A machine halted in the middle of a program, with a load pending. -/
def halted : State :=
  { committing (.ldr 2 .word 2 5) .readWord 0x12 [(2, 0x10)] [(0x12, 0x34)] with running := false, prev := {
    opcode := 0x8115, instr := .ldr 2 .word 2 5, pending := true, addr := some 0x0100 } }

theorem witness_HostKeepsInvariant : Inv Config.params halted ∧ (∃ t, hostStep .run halted = some t) ∧
    (∃ t, hostStep (.patchIm 0xFFFF 7) halted = some t) := by
  refine ⟨⟨by decide, by decide, by decide, rfl, fun _ => rfl, fun _ h => (nomatch h), ?_, ?_, fun _ h => (nomatch h),
    fun _ => by decide, fun _ _ => ⟨rfl, fun _ => rfl⟩⟩, ⟨_, rfl⟩, ⟨_, rfl⟩⟩
  · exact ⟨by decide, fun _ h => (nomatch h), fun _ => rfl⟩
  · exact ⟨by decide, fun a h => by injection h with h; subst h; rfl, fun h => (nomatch h)⟩

theorem witness_RunAndRestart :
    booted.running = true ∧ halted.running = false ∧ halted.faulted = none := by decide

theorem witness_BootFetchesEntryPoint : (0x0100 : Word).getLsbD 0 = false := by decide

end Sys2Proof.Tests
end

/-! PROOFS. The byte order of data memory (spec/20_memory.md section 2). -/

namespace Sys2Proof.Proofs

open Sys2Proof Sys2Proof.Machine

/-- A word read at an even address, where the second byte's address does not wrap: its two bytes, low byte first (R45). -/
theorem readWord_toNat_of_even (m : Memory) (a : Word) (h : a.getLsbD 0 = false) :
    (Memory.readWord m a).toNat = (Memory.read m a.toNat).toNat + 256 * (Memory.read m (a.toNat + 1)).toNat := by
  rw [Memory.readWord, wordOfBytes_toNat, succ_toNat_of_even a h]

/-- A word written at an even address: its low byte there, its high byte at the next number, no other byte changed (R45). -/
theorem read_writeWord_of_even (m : Memory) (a v : Word) (b : Nat) (h : a.getLsbD 0 = false) :
    Memory.read (Memory.writeWord m a v) b =
      if b = a.toNat + 1 then hi8 v else if b = a.toNat then lo8 v else Memory.read m b := by
  rw [read_writeWord, succ_toNat_of_even a h]

/-- Settles O31: the two laws of a word access at an even address, the second one read at each of its three cases. -/
theorem dataMemoryLittleEndian : Obligations.DataMemoryLittleEndian := by
  intro m a v h
  have written := fun b => read_writeWord_of_even m a v b h
  refine ⟨readWord_toNat_of_even m a h, ?low, ?high, fun b hlow hhigh => ?frame⟩
  case low => rw [written, if_neg (Nat.ne_of_lt a.toNat.lt_succ_self), if_pos rfl, lo8_toNat]
  case high => rw [written, if_pos rfl, hi8_toNat]
  case frame => rw [written, if_neg hhigh, if_neg hlow]

end Sys2Proof.Proofs

/-! PROOFS. The byte offsets of branches and of BL (spec/30_encoding.md R79, R80). -/

namespace Sys2Proof.Proofs

open Sys2Proof

/-- A zero bit appended below a field doubles its signed value. -/
theorem toInt_append_zero_bit {n : Nat} (field : BitVec n) : (field ++ 0#1).toInt = 2 * field.toInt := by
  cases n with
  | zero => simp [BitVec.of_length_zero]
  | succ n => simp [BitVec.toInt_append]

/-- The zero bit appended below a field stays the low bit when the field is sign-extended. -/
theorem even_signExtend_append_zero_bit {n : Nat} (m : Nat) (field : BitVec n) :
    ((field ++ 0#1).signExtend m).getLsbD 0 = false := by
  rw [BitVec.getLsbD_signExtend, if_pos n.succ_pos, BitVec.getLsbD_append, if_pos Nat.one_pos, BitVec.getLsbD_zero,
    Bool.and_false]

theorem branchOffset_toInt (w : Word) : (branchOffset w).toInt = 2 * (w.extractLsb' 0 10).toInt := by
  rw [branchOffset, BitVec.toInt_signExtend_of_le (by decide), toInt_append_zero_bit]

theorem linkOffset_toInt (w : Word) : (linkOffset w).toInt = 2 * (w.extractLsb' 0 13).toInt := by
  rw [linkOffset, BitVec.toInt_signExtend_of_le (by decide), toInt_append_zero_bit]

/-- Every decoded branch offset is one an instruction can hold: twice a signed 10-bit number (R79). -/
theorem branchOffset_wf (w : Word) : BranchOffset.wf (branchOffset w) := by
  have lower : -2 ^ 10 ≤ 2 * (w.extractLsb' 0 10).toInt := BitVec.le_two_mul_toInt
  have upper : 2 * (w.extractLsb' 0 10).toInt < 2 ^ 10 := BitVec.two_mul_toInt_lt
  rw [BranchOffset.wf, branchOffset_toInt]
  exact ⟨even_signExtend_append_zero_bit 16 _, by omega, by omega⟩

/-- Every decoded BL offset is one the instruction can hold: twice a signed 13-bit number (R80). -/
theorem linkOffset_wf (w : Word) : LinkOffset.wf (linkOffset w) := by
  have lower : -2 ^ 13 ≤ 2 * (w.extractLsb' 0 13).toInt := BitVec.le_two_mul_toInt
  have upper : 2 * (w.extractLsb' 0 13).toInt < 2 ^ 13 := BitVec.two_mul_toInt_lt
  rw [LinkOffset.wf, linkOffset_toInt]
  exact ⟨even_signExtend_append_zero_bit 16 _, by omega, by omega⟩

/-- Settles O4: both offsets are twice their field and well formed; the two worked fields are read off the doubling. -/
theorem branchAndLinkOffsets : Obligations.BranchAndLinkOffsets := by
  intro w
  obtain ⟨even, lower, upper⟩ := branchOffset_wf w
  refine ⟨⟨branchOffset_toInt w, even, lower, upper, fun allOnes => ?minusOne, fun one => ?plusOne⟩,
    linkOffset_toInt w, linkOffset_wf w⟩
  case minusOne => rw [branchOffset_toInt, allOnes]; rfl
  case plusOne => rw [branchOffset_toInt, one]; rfl

end Sys2Proof.Proofs

/-! PROOFS. The fields of an encoded word, format by format (spec/30_encoding.md R67 to R78). -/

namespace Sys2Proof.Proofs

open Sys2Proof Sys2Proof.Laws.EncodesItsRow

/-! ## Bits and fields -/

theorem ofBool_getLsbD {n : Nat} (v : BitVec n) (k : Nat) : BitVec.ofBool (v.getLsbD k) = v.extractLsb' k 1 := by
  rw [BitVec.getLsbD_eq_extractLsb']
  generalize v.extractLsb' k 1 = b
  revert b
  decide

theorem getLsbD_append_of_lt {m n : Nat} (a : BitVec m) (b : BitVec n) {k : Nat} (h : k < n) :
    (a ++ b).getLsbD k = b.getLsbD k := by rw [BitVec.getLsbD_append, if_pos h]

theorem getLsbD_append_of_le {m n : Nat} (a : BitVec m) (b : BitVec n) {k : Nat} (h : n ≤ k) :
    (a ++ b).getLsbD k = a.getLsbD (k - n) := by rw [BitVec.getLsbD_append, if_neg (Nat.not_lt.2 h)]

theorem ofBool_getLsbD_zero (b : Bool) : (BitVec.ofBool b).getLsbD 0 = b := by cases b <;> rfl

/-- A field of a field is a field. -/
theorem extractLsb'_extractLsb' {n a len b len' : Nat} (v : BitVec n) (h : b + len' ≤ len) :
    (v.extractLsb' a len).extractLsb' b len' = v.extractLsb' (a + b) len' := by
  apply BitVec.eq_of_getLsbD_eq
  intro k hk
  simp only [BitVec.getLsbD_extractLsb', hk, decide_true, Bool.true_and, Nat.add_assoc, decide_eq_true (show b + k < len by omega)]

@[simp] theorem width_ofBit_toBit (w : Width) : Width.ofBit w.toBit = w := by cases w <;> rfl

@[simp] theorem width_toBit_ofBit (b : Bool) : (Width.ofBit b).toBit = b := by cases b <;> rfl

@[simp] theorem operand_ofBits (s : Operand) : Operand.ofBits s.rc s.idx = s := by cases s <;> rfl

@[simp] theorem operand_rc_ofBits (rc : Bool) (i : RegIdx) : (Operand.ofBits rc i).rc = rc := by cases rc <;> rfl

@[simp] theorem operand_idx_ofBits (rc : Bool) (i : RegIdx) : (Operand.ofBits rc i).idx = i := by cases rc <;> rfl

@[simp] theorem cond_ofBits_toBits (c : Cond) : Cond.ofBits c.toBits = c := by cases c <;> rfl

theorem cond_toBits_ofBits : ∀ b : BitVec 4, (Cond.ofBits b).toBits = b := by decide

/-! ## The fields of an encoded word -/

section Register
variable (op : Byte) (w : Width) (s : Operand) (d : RegIdx)

@[simp] theorem encRegister_top : (encRegister op w s d).extractLsb' 13 3 = op.extractLsb' 5 3 := by
  simp (disch := decide) only [encRegister, BitVec.extractLsb'_append_eq_of_le, Nat.reduceSub]

@[simp] theorem encRegister_code : (encRegister op w s d).extractLsb' 8 5 = op.extractLsb' 0 5 := by
  simp (disch := decide) only [encRegister, BitVec.extractLsb'_append_eq_of_le, Nat.reduceSub]

@[simp] theorem encRegister_rc : (encRegister op w s d).getLsbD 7 = s.rc := by
  simp (disch := decide) only [encRegister, getLsbD_append_of_le, getLsbD_append_of_lt, Nat.reduceSub, ofBool_getLsbD_zero]

@[simp] theorem encRegister_wbBit : (encRegister op w s d).getLsbD 6 = w.toBit := by
  simp (disch := decide) only [encRegister, getLsbD_append_of_le, getLsbD_append_of_lt, Nat.reduceSub, ofBool_getLsbD_zero]

@[simp] theorem encRegister_src : (encRegister op w s d).extractLsb' 3 3 = s.idx := by
  simp (disch := decide) only [encRegister, BitVec.extractLsb'_append_eq_of_le, Nat.reduceSub,
    BitVec.extractLsb'_append_eq_right]

@[simp] theorem encRegister_dst : dstField (encRegister op w s d) = d := BitVec.extractLsb'_append_eq_right

@[simp] theorem encRegister_wb : wbField (encRegister op w s d) = w := by
  rw [wbField, encRegister_wbBit, width_ofBit_toBit]

@[simp] theorem encRegister_operand : operandField (encRegister op w s d) = s := by
  rw [operandField, encRegister_rc, srcField, encRegister_src, operand_ofBits]

end Register

/-- MOV and SWAP share the register family's layout, and so do the shifts (R72, R73). -/
theorem encode_mov (w : Width) (s d : RegIdx) : encode (.mov w s d) = encRegister 0x4C w (.reg s) d := rfl

theorem encode_swap (s d : RegIdx) : encode (.swap s d) = encRegister 0x4C .word (.const s) d := rfl

/-! ## The decoder's dispatch -/

section Dispatch
variable {w : Word}

theorem decodeWord_link (h : w.extractLsb' 13 3 = 0#3) : decodeWord w = .bl (linkOffset w) := by rw [decodeWord, h]; rfl

theorem decodeWord_branch (h : w.extractLsb' 13 3 = 1#3) : decodeWord w = decodeBranch w := by rw [decodeWord, h]; rfl

theorem decodeWord_register (h : w.extractLsb' 13 3 = 2#3) : decodeWord w = decodeRegister w := by rw [decodeWord, h]; rfl

theorem decodeWord_move (h : w.extractLsb' 13 3 = 3#3) : decodeWord w = decodeMove w := by rw [decodeWord, h]; rfl

theorem decodeWord_relative (h : w.getLsbD 15 = true) : decodeWord w =
    if w.getLsbD 14 then .str (relOffset w) (wbField w) (srcField w) (dstField w)
    else .ldr (relOffset w) (wbField w) (srcField w) (dstField w) := by
  obtain ⟨k, hk⟩ : ∃ k, (w.extractLsb' 13 3).toNat = k + 4 := by
    refine ⟨_, (Nat.sub_add_cancel ?_).symm⟩
    simp only [BitVec.getLsbD, Nat.testBit_eq_decide_div_mod_eq, decide_eq_true_iff] at h
    simp only [BitVec.extractLsb'_toNat, Nat.shiftRight_eq_div_pow]
    omega
  rw [decodeWord, hk]
  rfl

theorem decodeRegister_memory (h : w.getLsbD 12 = true) : decodeRegister w = decodeMemory w := by
  obtain ⟨k, hk⟩ : ∃ k, (w.extractLsb' 8 5).toNat = k + 16 := by
    refine ⟨_, (Nat.sub_add_cancel ?_).symm⟩
    simp only [BitVec.getLsbD, Nat.testBit_eq_decide_div_mod_eq, decide_eq_true_iff] at h
    simp only [BitVec.extractLsb'_toNat, Nat.shiftRight_eq_div_pow]
    omega
  rw [decodeRegister, hk]
  rfl

theorem decodeRegister_shift (h : w.extractLsb' 8 5 = 13#5) (h7 : w.getLsbD 7 = false) : decodeRegister w = decodeShift w := by
  rw [decodeRegister, h]
  exact if_neg (by rw [h7]; exact Bool.false_ne_true)

theorem decodeRegister_status (h : w.extractLsb' 8 5 = 13#5) (h7 : w.getLsbD 7 = true) : decodeRegister w = decodeStatus w := by
  rw [decodeRegister, h]
  exact if_pos h7

end Dispatch

/-! ## Each format's words, decoded -/

theorem decodeWord_encBranch (c : BitVec 3) (o : Word) :
    decodeWord (encBranch c o) = decodeBranch (encBranch c o) := by
  refine decodeWord_branch ?_
  simp (disch := decide) only [encBranch, BitVec.extractLsb'_append_eq_of_le, Nat.reduceSub, BitVec.extractLsb'_eq_self]

@[simp] theorem encBranch_code (c : BitVec 3) (o : Word) : (encBranch c o).extractLsb' 10 3 = c := by
  simp (disch := decide) only [encBranch, BitVec.extractLsb'_append_eq_of_le, BitVec.extractLsb'_append_eq_right, Nat.reduceSub]

@[simp] theorem encBranch_field (c : BitVec 3) (o : Word) : (encBranch c o).extractLsb' 0 10 = o.extractLsb' 1 10 :=
  BitVec.extractLsb'_append_eq_right

/-- The words of SRA, RRC, SWPB and SXT, whatever bit 6, reach the shift table (R73). -/
theorem decodeWord_shift (w : Width) (code d : RegIdx) :
    decodeWord (encRegister 0x4D w (.reg code) d) = decodeShift (encRegister 0x4D w (.reg code) d) := by
  rw [decodeWord_register (encRegister_top ..), decodeRegister_shift (encRegister_code ..) (encRegister_rc ..)]

theorem decodeWord_sra (w : Width) (d : RegIdx) : decodeWord (encRegister 0x4D w (.reg 0) d) = .sra w d := by
  rw [decodeWord_shift, decodeShift, encRegister_src, encRegister_wb, encRegister_dst]
  rfl

theorem decodeWord_rrc (w : Width) (d : RegIdx) : decodeWord (encRegister 0x4D w (.reg 1) d) = .rrc w d := by
  rw [decodeWord_shift, decodeShift, encRegister_src, encRegister_wb, encRegister_dst]
  rfl

theorem decodeWord_swpb (w : Width) (d : RegIdx) : decodeWord (encRegister 0x4D w (.reg 3) d) = .swpb d := by
  rw [decodeWord_shift, decodeShift, encRegister_src, encRegister_wb, encRegister_dst]
  rfl

theorem decodeWord_sxt (w : Width) (d : RegIdx) : decodeWord (encRegister 0x4D w (.reg 4) d) = .sxt d := by
  rw [decodeWord_shift, decodeShift, encRegister_src, encRegister_wb, encRegister_dst]
  rfl

section Move
variable (m : BitVec 2) (b : Byte) (d : RegIdx)

theorem decodeWord_encMove : decodeWord (encMove m b d) = decodeMove (encMove m b d) := by
  refine decodeWord_move ?_
  simp (disch := decide) only [encMove, BitVec.extractLsb'_append_eq_of_le, Nat.reduceSub, BitVec.extractLsb'_eq_self]

@[simp] theorem encMove_selector : (encMove m b d).extractLsb' 11 2 = m := by
  simp (disch := decide) only [encMove, BitVec.extractLsb'_append_eq_of_le, BitVec.extractLsb'_append_eq_right, Nat.reduceSub]

@[simp] theorem encMove_imm : (encMove m b d).extractLsb' 3 8 = b := by
  simp (disch := decide) only [encMove, BitVec.extractLsb'_append_eq_of_le, BitVec.extractLsb'_append_eq_right, Nat.reduceSub]

@[simp] theorem encMove_dst : dstField (encMove m b d) = d := BitVec.extractLsb'_append_eq_right

end Move

section Relative
variable (op : BitVec 2) (o : Word) (w : Width) (s d : RegIdx)

@[simp] theorem encRelative_bit15 : (encRelative op o w s d).getLsbD 15 = op.getLsbD 1 := by
  simp (disch := decide) only [encRelative, getLsbD_append_of_le, Nat.reduceSub]

@[simp] theorem encRelative_bit14 : (encRelative op o w s d).getLsbD 14 = op.getLsbD 0 := by
  simp (disch := decide) only [encRelative, getLsbD_append_of_le, Nat.reduceSub]

@[simp] theorem encRelative_field : (encRelative op o w s d).extractLsb' 7 7 = o.extractLsb' 0 7 := by
  simp (disch := decide) only [encRelative, BitVec.extractLsb'_append_eq_of_le, BitVec.extractLsb'_append_eq_right, Nat.reduceSub]

@[simp] theorem encRelative_wb : wbField (encRelative op o w s d) = w := by
  simp (disch := decide) only [encRelative, wbField, getLsbD_append_of_le, getLsbD_append_of_lt, Nat.reduceSub,
    ofBool_getLsbD_zero, width_ofBit_toBit]

@[simp] theorem encRelative_src : srcField (encRelative op o w s d) = s := by
  simp (disch := decide) only [encRelative, srcField, BitVec.extractLsb'_append_eq_of_le, BitVec.extractLsb'_append_eq_right,
    Nat.reduceSub]

@[simp] theorem encRelative_dst : dstField (encRelative op o w s d) = d := BitVec.extractLsb'_append_eq_right

end Relative

section Indirect
variable (l prpo dec inc : Bool) (w : Width) (s d : RegIdx)

theorem decodeWord_encIndirect : decodeWord (encIndirect l prpo dec inc w s d) = decodeMemory (encIndirect l prpo dec inc w s d) := by
  rw [decodeWord_register, decodeRegister_memory]
  · simp (disch := decide) only [encIndirect, getLsbD_append_of_le, Nat.reduceSub]
    rfl
  · simp (disch := decide) only [encIndirect, BitVec.extractLsb'_append_eq_of_le, Nat.reduceSub]
    rfl

@[simp] theorem encIndirect_code : (encIndirect l prpo dec inc w s d).extractLsb' 10 2 = 1#1 ++ BitVec.ofBool l := by
  simp (disch := decide) only [encIndirect, BitVec.extractLsb'_append_eq_of_le, Nat.reduceSub]
  cases l <;> rfl

@[simp] theorem encIndirect_prpo : (encIndirect l prpo dec inc w s d).getLsbD 9 = prpo := by
  simp (disch := decide) only [encIndirect, getLsbD_append_of_le, getLsbD_append_of_lt, Nat.reduceSub, ofBool_getLsbD_zero]

@[simp] theorem encIndirect_dec : (encIndirect l prpo dec inc w s d).getLsbD 8 = dec := by
  simp (disch := decide) only [encIndirect, getLsbD_append_of_le, getLsbD_append_of_lt, Nat.reduceSub, ofBool_getLsbD_zero]

@[simp] theorem encIndirect_inc : (encIndirect l prpo dec inc w s d).getLsbD 7 = inc := by
  simp (disch := decide) only [encIndirect, getLsbD_append_of_le, getLsbD_append_of_lt, Nat.reduceSub, ofBool_getLsbD_zero]

@[simp] theorem encIndirect_wb : wbField (encIndirect l prpo dec inc w s d) = w := by
  simp (disch := decide) only [encIndirect, wbField, getLsbD_append_of_le, getLsbD_append_of_lt, Nat.reduceSub,
    ofBool_getLsbD_zero, width_ofBit_toBit]

@[simp] theorem encIndirect_src : srcField (encIndirect l prpo dec inc w s d) = s := by
  simp (disch := decide) only [encIndirect, srcField, BitVec.extractLsb'_append_eq_of_le, BitVec.extractLsb'_append_eq_right,
    Nat.reduceSub]

@[simp] theorem encIndirect_dst : dstField (encIndirect l prpo dec inc w s d) = d := BitVec.extractLsb'_append_eq_right

end Indirect

theorem decodeWord_cex (c : Cond) (t f : BitVec 3) : decodeWord (encode (.cex c t f)) = .cex c t f := by
  have top : (encode (.cex c t f)).extractLsb' 13 3 = 2#3 := by
    simp (disch := decide) only [encode, BitVec.extractLsb'_append_eq_of_le, Nat.reduceSub]
    rfl
  have bit12 : (encode (.cex c t f)).getLsbD 12 = true := by
    simp (disch := decide) only [encode, getLsbD_append_of_le, Nat.reduceSub]
    rfl
  have code : (encode (.cex c t f)).extractLsb' 10 2 = 0#2 := by
    simp (disch := decide) only [encode, BitVec.extractLsb'_append_eq_of_le, Nat.reduceSub]
    rfl
  rw [decodeWord_register top, decodeRegister_memory bit12, decodeMemory, code]
  simp (disch := decide) only [encode, BitVec.extractLsb'_append_eq_of_le, BitVec.extractLsb'_append_eq_right, Nat.reduceSub,
    cond_ofBits_toBits]
  rfl

/-- The words of SETPRI, SVC, SETCC and CLRCC reach the priority decode (R74). -/
theorem decodeWord_status {w : Word} (h : w.extractLsb' 7 9 = 0b010011011#9) : decodeWord w = decodeStatus w := by
  have top : w.extractLsb' 13 3 = 2#3 := by
    rw [← extractLsb'_extractLsb' w (a := 7) (len := 9) (b := 6) (by decide), h]
    rfl
  have code : w.extractLsb' 8 5 = 13#5 := by
    rw [← extractLsb'_extractLsb' w (a := 7) (len := 9) (b := 1) (by decide), h]
    rfl
  have bit7 : w.getLsbD 7 = true := by
    rw [BitVec.getLsbD_eq_extractLsb', ← extractLsb'_extractLsb' w (a := 7) (len := 9) (b := 0) (by decide), h]
    rfl
  rw [decodeWord_register top, decodeRegister_status code bit7]

/-- The low n bits of a word that fits in n signed bits, sign-extended, are the word. -/
theorem signExtend_extractLsb' {n : Nat} (hn : n ≤ 16) (o : Word) (lower : -2 ^ n ≤ 2 * o.toInt)
    (upper : 2 * o.toInt < 2 ^ n) : (o.extractLsb' 0 n).signExtend 16 = o := by
  apply BitVec.eq_of_toInt_eq
  rw [BitVec.toInt_signExtend_of_le hn, ← BitVec.setWidth_eq_extractLsb' hn, BitVec.toInt_setWidth,
    ← Int.bmod_bmod_of_dvd (Nat.pow_dvd_pow 2 hn), ← BitVec.toInt_eq_toNat_bmod]
  exact Int.bmod_eq_of_le_mul_two (by push_cast; omega) (by push_cast; omega)

/-- An even word is its bits above the lowest with a zero below. -/
theorem extractLsb'_append_zero {n : Nat} (o : Word) (even : o.getLsbD 0 = false) :
    o.extractLsb' 1 n ++ 0#1 = o.extractLsb' 0 (n + 1) := by
  rw [← BitVec.extractLsb'_append_extractLsb'_eq_extractLsb' rfl, ← ofBool_getLsbD o 0, even]
  rfl

/-- A sign-extended field with a zero below gives the field back. -/
theorem extractLsb'_signExtend_field {n : Nat} (hn : n < 16) (f : BitVec n) :
    ((f ++ 0#1).signExtend 16).extractLsb' 1 n = f := by
  apply BitVec.eq_of_getLsbD_eq
  intro k hk
  rw [BitVec.getLsbD_extractLsb', BitVec.getLsbD_signExtend, if_pos (by omega), getLsbD_append_of_le _ _ (by omega),
    Nat.add_sub_cancel_left, decide_eq_true hk, decide_eq_true (by omega), Bool.true_and, Bool.true_and]

theorem extractLsb'_signExtend {n : Nat} (hn : n ≤ 16) (f : BitVec n) :
    (f.signExtend 16).extractLsb' 0 n = f := by
  apply BitVec.eq_of_getLsbD_eq
  intro k hk
  rw [BitVec.getLsbD_extractLsb', BitVec.getLsbD_signExtend, Nat.zero_add, if_pos hk, decide_eq_true hk,
    decide_eq_true (by omega), Bool.true_and, Bool.true_and]

theorem branchOffset_encBranch (c : BitVec 3) {o : Word} (h : BranchOffset.wf o) : branchOffset (encBranch c o) = o := by
  rw [branchOffset, encBranch_field, extractLsb'_append_zero o h.1, signExtend_extractLsb' (by decide) o (by omega) (by omega)]

theorem relOffset_encRelative (op : BitVec 2) {o : Word} (w : Width) (s d : RegIdx) (h : RelOffset.wf o) :
    relOffset (encRelative op o w s d) = o := by
  rw [relOffset, encRelative_field, signExtend_extractLsb' (by decide) o (by omega) (by omega)]

theorem decodeWord_bl {o : Word} (h : LinkOffset.wf o) : decodeWord (encode (.bl o)) = .bl o := by
  have top : (encode (.bl o)).extractLsb' 13 3 = 0#3 := by
    simp (disch := decide) only [encode, BitVec.extractLsb'_append_eq_of_le, Nat.reduceSub, BitVec.extractLsb'_eq_self]
  rw [decodeWord_link top, linkOffset, encode, BitVec.extractLsb'_append_eq_right, extractLsb'_append_zero o h.1,
    signExtend_extractLsb' (by decide) o (by omega) (by omega)]

/-! ## Status words: the highest bit set under bit 7 selects (R74) -/

theorem decodeWord_setpri (p : BitVec 3) : decodeWord (0b0100110110000#13 ++ p) = .setpri p := by
  rw [decodeWord_status (BitVec.extractLsb'_append_eq_of_le (by decide)), decodeStatus]
  simp (disch := decide) only [getLsbD_append_of_le, BitVec.extractLsb'_append_eq_right]
  rfl

theorem decodeWord_svc (a : BitVec 4) : decodeWord (0x4D9#12 ++ a) = .svc a := by
  rw [decodeWord_status (BitVec.extractLsb'_append_eq_of_le (by decide)), decodeStatus]
  simp (disch := decide) only [getLsbD_append_of_le, BitVec.extractLsb'_append_eq_right]
  rfl

theorem decodeWord_setcc (m : BitVec 5) : decodeWord (encode (.setcc m)) = .setcc m := by
  rw [encode, decodeWord_status (BitVec.extractLsb'_append_eq_of_le (by decide)), decodeStatus]
  simp (disch := decide) only [getLsbD_append_of_le, BitVec.extractLsb'_append_eq_right]
  rfl

theorem decodeWord_clrcc (m : BitVec 5) : decodeWord (encode (.clrcc m)) = .clrcc m := by
  have status : (encode (.clrcc m)).extractLsb' 7 9 = 0b010011011#9 := by
    simp (disch := decide) only [encode, BitVec.extractLsb'_append_eq_of_le, Nat.reduceSub]
    rfl
  rw [decodeWord_status status, decodeStatus, encode]
  simp (disch := decide) only [getLsbD_append_of_le, BitVec.extractLsb'_append_eq_right]
  rfl

/-! ## Round trip -/

/-- Settles O1: format by format, the decoder reads from an encoded word the fields the encoder put there. -/
theorem decodeEncodeRoundTrip : Obligations.DecodeEncodeRoundTrip := by
  intro i wf
  cases i
  case bl o => exact decodeWord_bl (of_decide_eq_true wf)
  case beq o | bne o | bc o | bnc o | bn o | bge o | blt o | bra o =>
    simp [encode, decodeWord_encBranch, decodeBranch, branchOffset_encBranch _ (of_decide_eq_true wf)]
  case add | addc | sub | subc | dadd | cmp | xor | and | or | bit | bic | bis =>
    simp [encode, decodeWord_register, decodeRegister]
  case mov w s d =>
    simp [encode_mov, decodeWord_register, decodeRegister, srcField, Operand.rc, Operand.idx, -BitVec.getLsbD_eq_getElem]
  case swap s d =>
    simp [encode_swap, decodeWord_register, decodeRegister, srcField, Operand.rc, Operand.idx, -BitVec.getLsbD_eq_getElem]
  case sra w d => exact decodeWord_sra w d
  case rrc w d => exact decodeWord_rrc w d
  case swpb d => exact decodeWord_swpb .word d
  case sxt d => exact decodeWord_sxt .word d
  case setpri p => exact decodeWord_setpri p
  case svc a => exact decodeWord_svc a
  case setcc m => exact decodeWord_setcc m
  case clrcc m => exact decodeWord_clrcc m
  case cex c t f => exact decodeWord_cex c t f
  case ld | st =>
    simp [encode, decodeWord_encIndirect, decodeMemory, -BitVec.getLsbD_eq_getElem]
  case movl | movlz | movls | movh => simp [encode, decodeWord_encMove, decodeMove]
  case ldr o w s d | str o w s d =>
    simp [encode, decodeWord_relative, relOffset_encRelative _ _ _ _ (of_decide_eq_true wf), -BitVec.getLsbD_eq_getElem]
  case undefined => rfl


/-! ## Words put together again from their fields -/

theorem eq_ofNat_of_toNat {n k : Nat} {v : BitVec n} (h : v.toNat = k) : v = BitVec.ofNat n k := by
  rw [← h, BitVec.ofNat_toNat, BitVec.setWidth_eq]

theorem whole (w : Word) : w.extractLsb' 0 16 = w := BitVec.extractLsb'_eq_self

section Fields
variable {w : Word}

theorem encBranch_fields (top : w.extractLsb' 13 3 = 1#3) {k : Nat} (code : (w.extractLsb' 10 3).toNat = k) :
    encBranch (BitVec.ofNat 3 k) (branchOffset w) = w := by
  rw [← eq_ofNat_of_toNat code, encBranch, ← top, branchOffset, extractLsb'_signExtend_field (by decide)]
  simp (disch := rfl) only [BitVec.extractLsb'_append_extractLsb'_eq_extractLsb']
  exact whole w

theorem encRegister_fields (top : w.extractLsb' 13 3 = 2#3) {k : Nat} (code : (w.extractLsb' 8 5).toNat = k) :
    encRegister (2#3 ++ BitVec.ofNat 5 k) (wbField w) (operandField w) (dstField w) = w := by
  rw [← eq_ofNat_of_toNat code, ← top, encRegister, wbField, operandField, dstField, operand_rc_ofBits, operand_idx_ofBits,
    width_toBit_ofBit, ofBool_getLsbD, ofBool_getLsbD, srcField]
  simp (disch := rfl) only [BitVec.extractLsb'_append_extractLsb'_eq_extractLsb']
  exact whole w

theorem encMove_fields (top : w.extractLsb' 13 3 = 3#3) {k : Nat} (code : (w.extractLsb' 11 2).toNat = k) :
    encMove (BitVec.ofNat 2 k) (w.extractLsb' 3 8) (dstField w) = w := by
  rw [← eq_ofNat_of_toNat code, encMove, ← top, dstField]
  simp (disch := rfl) only [BitVec.extractLsb'_append_extractLsb'_eq_extractLsb']
  exact whole w

theorem encRelative_fields (bit15 : w.getLsbD 15 = true) {b : Bool} (bit14 : w.getLsbD 14 = b) :
    encRelative (1#1 ++ BitVec.ofBool b) (relOffset w) (wbField w) (srcField w) (dstField w) = w := by
  have top : 1#1 = BitVec.ofBool (w.getLsbD 15) := by rw [bit15]; rfl
  rw [← bit14, top, encRelative, relOffset, extractLsb'_signExtend (by decide), wbField, dstField, width_toBit_ofBit, ofBool_getLsbD, ofBool_getLsbD, ofBool_getLsbD, srcField]
  simp (disch := rfl) only [BitVec.extractLsb'_append_extractLsb'_eq_extractLsb']
  exact whole w

theorem encIndirect_fields (top : w.extractLsb' 13 3 = 2#3) (bit12 : w.getLsbD 12 = true) {l : Bool}
    (code : w.extractLsb' 10 2 = 1#1 ++ BitVec.ofBool l) :
    encIndirect l (w.getLsbD 9) (w.getLsbD 8) (w.getLsbD 7) (wbField w) (srcField w) (dstField w) = w := by
  have fixed : 0b01011#5 ++ BitVec.ofBool l = w.extractLsb' 10 6 := by
    have : w.extractLsb' 13 3 ++ w.extractLsb' 12 1 ++ w.extractLsb' 10 2 = w.extractLsb' 10 6 := by
      simp (disch := rfl) only [BitVec.extractLsb'_append_extractLsb'_eq_extractLsb']
    rw [← this, top, ← ofBool_getLsbD, bit12, code]
    cases l <;> rfl
  rw [encIndirect, fixed, wbField, dstField, width_toBit_ofBit]
  simp (disch := rfl) only [ofBool_getLsbD, srcField, BitVec.extractLsb'_append_extractLsb'_eq_extractLsb']
  exact whole w

end Fields

/-! ## The encoder after the decoder -/

/-- What EncodeAfterDecode says of the word w when it decodes to i. -/
def EncodesBack (w : Word) (i : Instr) : Prop :=
  i.WellFormed ∧ (i ≠ .undefined → encode i = w &&& Claims.readMask i)

/-- An instruction that reads every bit, and whose word is w. -/
theorem EncodesBack.all {w : Word} {i : Instr} (wf : i.WellFormed) (mask : Claims.readMask i = BitVec.allOnes 16)
    (h : encode i = w) : EncodesBack w i :=
  ⟨wf, fun _ => by rw [mask, BitVec.and_allOnes, h]⟩

theorem EncodesBack.undefined (w : Word) : EncodesBack w .undefined := ⟨rfl, fun h => absurd rfl h⟩

/-- A register-format word without bit 6 (R94). -/
theorem encRegister_mask (op : Byte) (w : Width) (s : Operand) (d : RegIdx) :
    encRegister op w s d &&& 0xFFBF#16 = encRegister op .word s d := by
  change (op ++ BitVec.ofBool s.rc ++ BitVec.ofBool w.toBit ++ s.idx ++ d) &&&
    (BitVec.allOnes 8 ++ BitVec.allOnes 1 ++ 0#1 ++ BitVec.allOnes 3 ++ BitVec.allOnes 3) = _
  simp only [append_and_append, and_ones, and_zeros]
  rfl

/-- An instruction of the register format that does not read bit 6. -/
theorem EncodesBack.allButBit6 {w : Word} {i : Instr} {op : Byte} {wb : Width} {s : Operand} {d : RegIdx}
    (h : encRegister op wb s d = w) (wf : i.WellFormed) (mask : Claims.readMask i = 0xFFBF#16)
    (short : encode i = encRegister op .word s d) :
    EncodesBack w i :=
  ⟨wf, fun _ => by rw [mask, short, ← h, encRegister_mask]⟩

theorem encodesBack_branch {w : Word} (top : w.extractLsb' 13 3 = 1#3) : EncodesBack w (decodeBranch w) := by
  have wf := decide_eq_true (branchOffset_wf w)
  have bound := (w.extractLsb' 10 3).isLt
  unfold decodeBranch
  split
  case h_8 =>
    simp only [imp_false] at *
    exact .all wf rfl (encBranch_fields top (k := 7) (by omega))
  all_goals exact .all wf rfl (encBranch_fields top ‹_›)

theorem encodesBack_move {w : Word} (top : w.extractLsb' 13 3 = 3#3) : EncodesBack w (decodeMove w) := by
  have bound := (w.extractLsb' 11 2).isLt
  unfold decodeMove
  split
  case h_4 =>
    simp only [imp_false] at *
    exact .all rfl rfl (encMove_fields top (k := 3) (by omega))
  all_goals exact .all rfl rfl (encMove_fields top ‹_›)

theorem relOffset_wf (w : Word) : RelOffset.wf (relOffset w) := by
  have lower : -2 ^ 7 ≤ 2 * (w.extractLsb' 7 7).toInt := BitVec.le_two_mul_toInt
  have upper : 2 * (w.extractLsb' 7 7).toInt < 2 ^ 7 := BitVec.two_mul_toInt_lt
  rw [RelOffset.wf, relOffset, BitVec.toInt_signExtend_of_le (by decide)]
  exact ⟨by omega, by omega⟩

theorem encodesBack_relative {w : Word} (bit15 : w.getLsbD 15 = true) : EncodesBack w (decodeWord w) := by
  have wf := decide_eq_true (relOffset_wf w)
  rw [decodeWord_relative bit15]
  split
  case isTrue bit14 => exact .all wf rfl (encRelative_fields (b := true) bit15 bit14)
  case isFalse bit14 => exact .all wf rfl (encRelative_fields (b := false) bit15 (Bool.eq_false_iff.2 bit14))

theorem encodesBack_memory {w : Word} (top : w.extractLsb' 13 3 = 2#3) (bit12 : w.getLsbD 12 = true) :
    EncodesBack w (decodeMemory w) := by
  have bound := (w.extractLsb' 10 2).isLt
  unfold decodeMemory
  split
  case h_1 code =>
    refine .all rfl rfl ?_
    have fixed : 0b010100#6 = w.extractLsb' 10 6 := by
      have : w.extractLsb' 13 3 ++ w.extractLsb' 12 1 ++ w.extractLsb' 10 2 = w.extractLsb' 10 6 := by
        simp (disch := rfl) only [BitVec.extractLsb'_append_extractLsb'_eq_extractLsb']
      rw [← this, top, ← ofBool_getLsbD, bit12, eq_ofNat_of_toNat code]
      rfl
    rw [encode, fixed, cond_toBits_ofBits]
    simp (disch := rfl) only [BitVec.extractLsb'_append_extractLsb'_eq_extractLsb']
    exact whole w
  case h_2 => exact .undefined w
  case h_3 code => exact .all rfl rfl (encIndirect_fields top bit12 (eq_ofNat_of_toNat code))
  case h_4 =>
    simp only [imp_false] at *
    exact .all rfl rfl (encIndirect_fields top bit12 (l := true) (eq_ofNat_of_toNat (k := 3) (by omega)))

theorem encodesBack_shift {w : Word} (back : encRegister 0x4D (wbField w) (operandField w) (dstField w) = w)
    (bit7 : w.getLsbD 7 = false) : EncodesBack w (decodeShift w) := by
  have operand : operandField w = .reg (w.extractLsb' 3 3) := by rw [operandField, bit7]; rfl
  rw [operand] at back
  unfold decodeShift
  split <;> try rename_i code; rw [eq_ofNat_of_toNat code] at back
  case h_1 => exact .all rfl rfl back
  case h_2 => exact .all rfl rfl back
  case h_3 => exact .allButBit6 back rfl rfl rfl
  case h_4 => exact .allButBit6 back rfl rfl rfl
  case h_5 => exact .undefined w

theorem encodesBack_status {w : Word} (high : w.extractLsb' 7 9 = 0b010011011#9) : EncodesBack w (decodeStatus w) := by
  unfold decodeStatus
  split
  case isTrue bit6 =>
    refine ⟨rfl, fun _ => ?_⟩
    have back : w.extractLsb' 7 9 ++ BitVec.ofBool (w.getLsbD 6) ++ w.extractLsb' 5 1 ++ w.extractLsb' 0 5 = w := by
      simp (disch := rfl) only [ofBool_getLsbD, BitVec.extractLsb'_append_extractLsb'_eq_extractLsb']
      exact whole w
    rw [high, bit6] at back
    calc encode (.clrcc (w.extractLsb' 0 5))
        = (0b010011011#9 ++ 1#1 ++ w.extractLsb' 5 1 ++ w.extractLsb' 0 5) &&&
            (BitVec.allOnes 9 ++ BitVec.allOnes 1 ++ 0#1 ++ BitVec.allOnes 5) := by
          simp only [append_and_append, and_ones, and_zeros]
          rfl
      _ = w &&& 0xFFDF#16 := congrArg (· &&& 0xFFDF#16) back
  case isFalse bit6 =>
    rw [Bool.not_eq_true] at bit6
    split
    case isTrue bit5 =>
      refine .all rfl rfl ?_
      have back : w.extractLsb' 7 9 ++ BitVec.ofBool (w.getLsbD 6) ++ BitVec.ofBool (w.getLsbD 5) ++ w.extractLsb' 0 5 = w := by
        simp (disch := rfl) only [ofBool_getLsbD, BitVec.extractLsb'_append_extractLsb'_eq_extractLsb']
        exact whole w
      rw [high, bit6, bit5] at back
      exact back
    case isFalse bit5 =>
      rw [Bool.not_eq_true] at bit5
      split
      case isTrue bit4 =>
        refine .all rfl rfl ?_
        have back : w.extractLsb' 7 9 ++ BitVec.ofBool (w.getLsbD 6) ++ BitVec.ofBool (w.getLsbD 5) ++
            BitVec.ofBool (w.getLsbD 4) ++ w.extractLsb' 0 4 = w := by
          simp (disch := rfl) only [ofBool_getLsbD, BitVec.extractLsb'_append_extractLsb'_eq_extractLsb']
          exact whole w
        rw [high, bit6, bit5, bit4] at back
        exact back
      case isFalse bit4 =>
        rw [Bool.not_eq_true] at bit4
        split
        case isTrue => exact .undefined w
        case isFalse bit3 =>
          rw [Bool.not_eq_true] at bit3
          refine .all rfl rfl ?_
          have back : w.extractLsb' 7 9 ++ BitVec.ofBool (w.getLsbD 6) ++ BitVec.ofBool (w.getLsbD 5) ++
              BitVec.ofBool (w.getLsbD 4) ++ BitVec.ofBool (w.getLsbD 3) ++ w.extractLsb' 0 3 = w := by
            simp (disch := rfl) only [ofBool_getLsbD, BitVec.extractLsb'_append_extractLsb'_eq_extractLsb']
            exact whole w
          rw [high, bit6, bit5, bit4, bit3] at back
          exact back

theorem encodesBack_register {w : Word} (top : w.extractLsb' 13 3 = 2#3) : EncodesBack w (decodeRegister w) := by
  cases bit12 : w.getLsbD 12
  case true =>
    rw [decodeRegister_memory bit12]
    exact encodesBack_memory top bit12
  unfold decodeRegister
  split <;> try rename_i code; have back := encRegister_fields top code
  case h_13 =>
    split
    case isTrue bit7 =>
      have operand : operandField w = .const (w.extractLsb' 3 3) := by rw [operandField, bit7]; rfl
      rw [operand] at back
      exact .allButBit6 back rfl rfl rfl
    case isFalse bit7 =>
      have operand : operandField w = .reg (w.extractLsb' 3 3) := by rw [operandField, Bool.eq_false_iff.2 bit7]; rfl
      rw [operand] at back
      exact .all rfl rfl back
  case h_14 =>
    split
    case isTrue bit7 =>
      refine encodesBack_status ?_
      have : w.extractLsb' 13 3 ++ w.extractLsb' 8 5 ++ BitVec.ofBool (w.getLsbD 7) = w.extractLsb' 7 9 := by
        simp (disch := rfl) only [ofBool_getLsbD, BitVec.extractLsb'_append_extractLsb'_eq_extractLsb']
      rw [← this, top, eq_ofNat_of_toNat code, bit7]
      rfl
    case isFalse bit7 => exact encodesBack_shift back (Bool.eq_false_iff.2 bit7)
  case h_15 | h_16 => exact .undefined w
  case h_17 =>
    simp only [imp_false] at *
    have bound := (w.extractLsb' 8 5).isLt
    simp only [BitVec.getLsbD, Nat.testBit_eq_decide_div_mod_eq, decide_eq_false_iff_not] at bit12
    simp only [BitVec.extractLsb'_toNat, Nat.shiftRight_eq_div_pow] at *
    omega
  all_goals exact .all rfl rfl back


theorem link_fields {w : Word} (top : w.extractLsb' 13 3 = 0#3) : encode (.bl (linkOffset w)) = w := by
  rw [encode, linkOffset, extractLsb'_signExtend_field (by decide), ← top]
  simp (disch := rfl) only [BitVec.extractLsb'_append_extractLsb'_eq_extractLsb']
  exact whole w

/-- Settles O2: along the decoder's dispatch, every format's word is put together again from the fields read from it. -/
theorem encodeAfterDecode : Obligations.EncodeAfterDecode := by
  intro w
  cases bit15 : w.getLsbD 15
  case true => exact encodesBack_relative bit15
  have low : (w.extractLsb' 13 3).toNat < 4 := by
    simp only [BitVec.getLsbD, Nat.testBit_eq_decide_div_mod_eq, decide_eq_false_iff_not] at bit15
    simp only [BitVec.extractLsb'_toNat, Nat.shiftRight_eq_div_pow]
    omega
  change EncodesBack w (decodeWord w)
  match h : (w.extractLsb' 13 3).toNat, low with
  | 0, _ =>
    have top := eq_ofNat_of_toNat h
    rw [decodeWord_link top]
    exact .all (decide_eq_true (linkOffset_wf w)) rfl (link_fields top)
  | 1, _ =>
    have top := eq_ofNat_of_toNat h
    rw [decodeWord_branch top]
    exact encodesBack_branch top
  | 2, _ =>
    have top := eq_ofNat_of_toNat h
    rw [decodeWord_register top]
    exact encodesBack_register top
  | 3, _ =>
    have top := eq_ofNat_of_toNat h
    rw [decodeWord_move top]
    exact encodesBack_move top

end Sys2Proof.Proofs

/-! PROOFS. Which words are Undefined (spec/30_encoding.md R93). -/

namespace Sys2Proof.Proofs

open Sys2Proof Sys2Proof.Laws.EncodesItsRow

/-! ## Masked words and their fields -/

/-- The high m bits of a word are `a`, read off the word masked to them. -/
theorem and_high_iff {m n : Nat} (v : BitVec (m + n)) (a : BitVec m) :
    v &&& (BitVec.allOnes m ++ 0#n) = a ++ 0#n ↔ v.extractLsb' n m = a := by
  have masked : v &&& (BitVec.allOnes m ++ 0#n) = v.extractLsb' n m ++ 0#n := by
    conv_lhs => rw [← BitVec.extractLsb'_append_extractLsb' (x := v), append_and_append, and_ones, and_zeros]
  rw [masked]
  refine ⟨fun h => ?_, fun h => by rw [h]⟩
  have high := congrArg (BitVec.extractLsb' n m) h
  rwa [BitVec.extractLsb'_append_eq_left, BitVec.extractLsb'_append_eq_left] at high

/-- The words of a shift code, whatever bit 6 and the destination (R73). -/
theorem and_shift_iff (w : Word) (a : BitVec 9) (code : BitVec 3) :
    w &&& 0xFFB8#16 = a ++ 0#1 ++ code ++ 0#3 ↔ w.extractLsb' 7 9 = a ∧ w.extractLsb' 3 3 = code := by
  have parts : w.extractLsb' 7 9 ++ w.extractLsb' 6 1 ++ w.extractLsb' 3 3 ++ w.extractLsb' 0 3 = w := by
    simp (disch := rfl) only [BitVec.extractLsb'_append_extractLsb'_eq_extractLsb']
    exact whole w
  have masked : (w.extractLsb' 7 9 ++ w.extractLsb' 6 1 ++ w.extractLsb' 3 3 ++ w.extractLsb' 0 3) &&&
      (BitVec.allOnes 9 ++ 0#1 ++ BitVec.allOnes 3 ++ 0#3) = w.extractLsb' 7 9 ++ 0#1 ++ w.extractLsb' 3 3 ++ 0#3 := by
    simp only [append_and_append, and_ones, and_zeros]
  rw [parts] at masked
  refine (Eq.congr_left masked).trans ⟨fun h => ⟨?_, ?_⟩, fun ⟨ha, hcode⟩ => by rw [ha, hcode]⟩
  · have := congrArg (BitVec.extractLsb' 7 9) h
    simpa (disch := decide) only [BitVec.extractLsb'_append_eq_of_le, Nat.reduceSub, BitVec.extractLsb'_eq_self] using this
  · have := congrArg (BitVec.extractLsb' 3 3) h
    simpa (disch := decide) only [BitVec.extractLsb'_append_eq_of_le, Nat.reduceSub, BitVec.extractLsb'_append_eq_right] using this

/-! ## Where the dispatch ends in Undefined -/

theorem decodeBranch_ne_undefined (w : Word) : decodeBranch w ≠ .undefined := by
  unfold decodeBranch
  split <;> exact Instr.noConfusion

theorem decodeMove_ne_undefined (w : Word) : decodeMove w ≠ .undefined := by
  unfold decodeMove
  split <;> exact Instr.noConfusion

theorem decodeShift_eq_undefined (w : Word) : decodeShift w = .undefined ↔
    (w.extractLsb' 3 3).toNat = 2 ∨ 5 ≤ (w.extractLsb' 3 3).toNat := by
  unfold decodeShift
  split <;> simp only [imp_false, reduceCtorEq, false_iff, true_iff] at * <;> omega

theorem decodeStatus_eq_undefined (w : Word) : decodeStatus w = .undefined ↔
    w.getLsbD 6 = false ∧ w.getLsbD 5 = false ∧ w.getLsbD 4 = false ∧ w.getLsbD 3 = true := by
  unfold decodeStatus
  generalize w.getLsbD 6 = b6, w.getLsbD 5 = b5, w.getLsbD 4 = b4, w.getLsbD 3 = b3
  cases b6 <;> cases b5 <;> cases b4 <;> cases b3 <;> simp

theorem decodeMemory_eq_undefined (w : Word) : decodeMemory w = .undefined ↔ (w.extractLsb' 10 2).toNat = 1 := by
  unfold decodeMemory
  split <;> simp only [imp_false, reduceCtorEq, false_iff, true_iff] at * <;> omega

theorem decodeRegister_eq_undefined (w : Word) : decodeRegister w = .undefined ↔
    (w.extractLsb' 8 5).toNat = 13 ∧ w.getLsbD 7 = false ∧ decodeShift w = .undefined ∨
    (w.extractLsb' 8 5).toNat = 13 ∧ w.getLsbD 7 = true ∧ decodeStatus w = .undefined ∨
    (w.extractLsb' 8 5).toNat = 14 ∨ (w.extractLsb' 8 5).toNat = 15 ∨
    16 ≤ (w.extractLsb' 8 5).toNat ∧ decodeMemory w = .undefined := by
  unfold decodeRegister
  split
  case h_13 code => rw [code]; split <;> simp
  case h_14 code => rw [code]; cases w.getLsbD 7 <;> simp
  case h_17 =>
    have high : 16 ≤ (w.extractLsb' 8 5).toNat := by simp only [imp_false] at *; omega
    have ne {k : Nat} (hk : k < 16) : (w.extractLsb' 8 5).toNat ≠ k := (Nat.lt_of_lt_of_le hk high).ne'
    simp [ne, high, -BitVec.extractLsb'_toNat]
  all_goals
    rename_i code
    rw [code]
    simp

theorem decodeWord_eq_undefined (w : Word) : decodeWord w = .undefined ↔
    (w.extractLsb' 13 3).toNat = 2 ∧ decodeRegister w = .undefined := by
  unfold decodeWord
  split
  case h_1 code => simp [code]
  case h_2 code => simp [code, decodeBranch_ne_undefined]
  case h_3 code => simp [code]
  case h_4 code => simp [code, decodeMove_ne_undefined]
  case h_5 =>
    refine iff_of_false ?_ (by simp only [imp_false] at *; omega)
    split <;> exact Instr.noConfusion

/-- Settles O3: the words that end in Undefined along the dispatch are, as numbers, those of the seven masks. -/
theorem undefinedWordsExactly : Obligations.UndefinedWordsExactly := by
  intro w
  rw [decodeWord_eq_undefined, decodeRegister_eq_undefined, decodeShift_eq_undefined, decodeStatus_eq_undefined,
    decodeMemory_eq_undefined]
  have masks := or_congr (and_shift_iff w 0b010011010#9 2#3) <| or_congr (and_shift_iff w 0b010011010#9 5#3) <|
    or_congr (and_shift_iff w 0b010011010#9 6#3) <| or_congr (and_shift_iff w 0b010011010#9 7#3) <|
    or_congr (and_high_iff (m := 13) (n := 3) w 0b0100110110001#13) <|
    or_congr (and_high_iff (m := 7) (n := 9) w 0b0100111#7) (and_high_iff (m := 6) (n := 10) w 0b010101#6)
  refine Iff.trans ?_ masks.symm
  clear masks
  simp only [← BitVec.toNat_inj, BitVec.extractLsb'_toNat, Nat.shiftRight_eq_div_pow, BitVec.getLsbD,
    Nat.testBit_eq_decide_div_mod_eq, decide_eq_true_iff, decide_eq_false_iff_not, BitVec.toNat_ofNat]
  constructor
  · rintro ⟨top, ⟨code, bit7, shift⟩ | ⟨code, bit7, bit6, bit5, bit4, bit3⟩ | code | code | ⟨code, memory⟩⟩
    · have high : w.toNat / 2 ^ 7 % 2 ^ 9 = 154 % 2 ^ 9 := by omega
      simp only [high, true_and]
      omega
    · exact .inr (.inr (.inr (.inr (.inl (by omega)))))
    · exact .inr (.inr (.inr (.inr (.inr (.inl (by omega))))))
    · exact .inr (.inr (.inr (.inr (.inr (.inl (by omega))))))
    · exact .inr (.inr (.inr (.inr (.inr (.inr (by omega))))))
  · rintro (h | h | h | h | h | h | h)
    · exact ⟨by omega, .inl (by omega)⟩
    · exact ⟨by omega, .inl (by omega)⟩
    · exact ⟨by omega, .inl (by omega)⟩
    · exact ⟨by omega, .inl (by omega)⟩
    · exact ⟨by omega, .inr (.inl (by omega))⟩
    · exact ⟨by omega, .inr (.inr (by omega))⟩
    · exact ⟨by omega, .inr (.inr (.inr (.inr (by omega))))⟩

end Sys2Proof.Proofs

/-! PROOFS. Results and flags of a w-bit operation, as numbers (spec/10_state.md R19, R26; spec/41_arithmetic.md R100). -/

namespace Sys2Proof.Proofs

open Sys2Proof Sys2Proof.Machine Sys2Proof.Claims

/-! ## The low w bits of a register -/

theorem two_pow_bits_pos (w : Width) : 0 < 2 ^ bits w := Nat.two_pow_pos _

theorem low_lt (w : Width) (v : Word) : low w v < 2 ^ bits w := Nat.mod_lt _ (two_pow_bits_pos w)

theorem aOperand_toNat (s : State) (w : Width) (dst : RegIdx) : (s.aOperand w dst).toNat = low w (s.reg dst) :=
  trunc_toNat w _

theorem sOperand_toNat (s : State) (w : Width) (src : Operand) : (s.sOperand w src).toNat = low w (s.operand src) :=
  trunc_toNat w _

/-- A merged register, as the statements write it (R19). -/
theorem merge_toNat_kept {w : Width} (old : Word) {r : Word} (h : r.toNat < 2 ^ bits w) :
    (merge w old r).toNat = kept w old r.toNat := by
  rw [merge_toNat, Nat.mod_eq_of_lt h, kept]

theorem low_merge {w : Width} (old : Word) {r : Word} (h : r.toNat < 2 ^ bits w) : low w (merge w old r) = r.toNat := by
  rw [low, merge_toNat_kept old h, kept, Nat.mul_add_mod_self_right, Nat.mod_eq_of_lt h]

/-- The bits above the width, of a register a w-bit value was written to (R19). -/
theorem merge_div {w : Width} (old : Word) {r : Word} (h : r.toNat < 2 ^ bits w) :
    (merge w old r).toNat / 2 ^ bits w = old.toNat / 2 ^ bits w := by
  rw [merge_toNat_kept old h, kept, Nat.mul_comm, Nat.mul_add_div (two_pow_bits_pos w), Nat.div_eq_of_lt h, Nat.add_zero]

theorem low_of_kept {w : Width} {v old : Word} {r : Nat} (h : v.toNat = kept w old r) (hr : r < 2 ^ bits w) : low w v = r := by
  rw [low, h, kept, Nat.mul_add_mod_self_right, Nat.mod_eq_of_lt hr]

/-- The sign of the low w bits is bit w - 1. -/
theorem top_low (w : Width) (v : Word) : top w (low w v) = v.getLsbD (bits w - 1) := by
  have h := signBit_eq w (trunc w v) (by rw [trunc_toNat]; exact low_lt w v)
  rw [trunc_toNat] at h
  rw [low, top, ← h, signBit, trunc_getLsbD, decide_eq_true (by cases w <;> decide), Bool.true_and]

theorem beq_zero_eq (r : Word) : (r == 0) = decide (r.toNat = 0) := by
  rw [Bool.eq_iff_iff, beq_iff_eq, decide_eq_true_iff, ← BitVec.toNat_inj]
  rfl

/-! ## Frames -/

theorem onlyRegsAndFlags (s : State) (x : Vector Word 8) (f : Flags) : OnlyRegsAndFlags s ((s.setX x).setFlags f) :=
  ⟨rfl, fun _ => ⟨rfl, rfl⟩⟩

theorem otherRegs_writeW (s : State) (w : Width) (dst : RegIdx) (v : Word) (f : Flags) :
    OtherRegs s ((s.writeW w dst v).setFlags f) dst := fun i hi => by simp [hi]

theorem onlyRegsAndFlags_writeW (s : State) (w : Width) (dst : RegIdx) (v : Word) (f : Flags) :
    OnlyRegsAndFlags s ((s.writeW w dst v).setFlags f) := by
  rw [writeW_eq]
  exact onlyRegsAndFlags s _ f

/-! ## The adder -/

theorem aluAdd_r_toNat (w : Width) (a b : Word) (cin : Bool) :
    (aluAdd w a b cin).r.toNat = (a.toNat + b.toNat + cin.toNat) % 2 ^ bits w := ofNat_mod_bits w _

theorem aluAdd_r_lt (w : Width) (a b : Word) (cin : Bool) : (aluAdd w a b cin).r.toNat < 2 ^ bits w := by
  rw [aluAdd_r_toNat]
  exact Nat.mod_lt _ (two_pow_bits_pos w)

/-- The flags of the adder, for addends within the width (R100). -/
theorem aluAdd_flags {w : Width} {a b : Word} (cin : Bool) (f : Flags) (ha : a.toNat < 2 ^ bits w) (hb : b.toNat < 2 ^ bits w) :
    AdderFlags w a.toNat b.toNat cin.toNat (f.ofAlu (aluAdd w a b cin)) := by
  have hn : signBit w (aluAdd w a b cin).r = top w ((a.toNat + b.toNat + cin.toNat) % 2 ^ bits w) := by
    rw [signBit_eq w _ (aluAdd_r_lt w a b cin), aluAdd_r_toNat, top]
  refine ⟨rfl, ?_, hn, ?_⟩
  · exact (beq_zero_eq (aluAdd w a b cin).r).trans (by rw [aluAdd_r_toNat])
  · change (signBit w a == signBit w b && signBit w (aluAdd w a b cin).r != signBit w a) = _
    rw [hn, signBit_eq w a ha, signBit_eq w b hb, ← top, ← top]

/-- An ALU addition written back is the addition of the statements (R100, R102). -/
theorem addsInto_aluWrite {w : Width} (dst : RegIdx) {b : Word} (cin : Bool) (s : State) (hb : b.toNat < 2 ^ bits w) :
    AddsInto w dst b.toNat cin.toNat s (s.aluWrite w dst (aluAdd w (s.aOperand w dst) b cin)) := by
  have ha := aOperand_toNat s w dst
  refine ⟨?_, otherRegs_writeW s w dst _ _, ?_, rfl, onlyRegsAndFlags_writeW s w dst _ _⟩
  · rw [State.aluWrite, State.setFlags_reg, writeW_reg, if_pos rfl, merge_toNat_kept _ (aluAdd_r_lt ..), aluAdd_r_toNat, ha]
  · rw [← ha]
    exact aluAdd_flags cin s.flags (ha ▸ low_lt w _) hb

theorem negWithin_toNat (w : Width) (s : Word) : (negWithin w s).toNat = (2 ^ bits w - s.toNat) % 2 ^ bits w :=
  ofNat_mod_bits w _

theorem notWithin_toNat (w : Width) (s : Word) : (notWithin w s).toNat = 2 ^ bits w - 1 - s.toNat := by
  rw [notWithin, BitVec.toNat_ofNat, Nat.mod_eq_of_lt]
  cases w <;> simp only [bits] <;> omega

/-! ## ADD, ADDC, SUB, SUBC, CMP -/

theorem sOperand_lt (s : State) (w : Width) (src : Operand) : (s.sOperand w src).toNat < 2 ^ bits w := by
  rw [sOperand_toNat]
  exact low_lt w _

theorem exec_add (w : Width) (src : Operand) (dst : RegIdx) (s : State) :
    ∃ t, exec (.add w src dst) s = .next t ∧ AddsInto w dst (low w (s.operand src)) 0 s t :=
  ⟨_, rfl, sOperand_toNat s w src ▸ addsInto_aluWrite dst false s (sOperand_lt s w src)⟩

theorem exec_addc (w : Width) (src : Operand) (dst : RegIdx) (s : State) :
    ∃ t, exec (.addc w src dst) s = .next t ∧ AddsInto w dst (low w (s.operand src)) s.flags.c.toNat s t :=
  ⟨_, rfl, sOperand_toNat s w src ▸ addsInto_aluWrite dst s.flags.c s (sOperand_lt s w src)⟩

theorem negWithin_sOperand (s : State) (w : Width) (src : Operand) :
    (negWithin w (s.sOperand w src)).toNat = (2 ^ bits w - low w (s.operand src)) % 2 ^ bits w := by
  rw [negWithin_toNat, sOperand_toNat]

theorem notWithin_sOperand (s : State) (w : Width) (src : Operand) :
    (notWithin w (s.sOperand w src)).toNat = 2 ^ bits w - 1 - low w (s.operand src) := by
  rw [notWithin_toNat, sOperand_toNat]

theorem exec_sub (w : Width) (src : Operand) (dst : RegIdx) (s : State) : ∃ t, exec (.sub w src dst) s = .next t ∧
    AddsInto w dst ((2 ^ bits w - low w (s.operand src)) % 2 ^ bits w) 0 s t := by
  have hb := negWithin_sOperand s w src
  exact ⟨_, rfl, hb ▸ addsInto_aluWrite dst false s (hb ▸ Nat.mod_lt _ (two_pow_bits_pos w))⟩

theorem exec_subc (w : Width) (src : Operand) (dst : RegIdx) (s : State) : ∃ t, exec (.subc w src dst) s = .next t ∧
    AddsInto w dst ((2 ^ bits w - 1) - low w (s.operand src)) s.flags.c.toNat s t := by
  have hb := notWithin_sOperand s w src
  have pos := two_pow_bits_pos w
  exact ⟨_, rfl, hb ▸ addsInto_aluWrite dst s.flags.c s (hb ▸ by omega)⟩

/-- Settles O8: SUB is `exec_sub`; CMP has the flags of the same addition and writes no register. -/
theorem subAndCmp : Obligations.SubAndCmp := by
  refine ⟨exec_sub, fun w src dst s => ⟨_, rfl, fun _ => rfl, ?flags, rfl, onlyRegsAndFlags s s.x _⟩⟩
  have hb := negWithin_sOperand s w src
  rw [← aOperand_toNat, ← hb]
  exact aluAdd_flags false s.flags (aOperand_toNat s w dst ▸ low_lt w _) (hb ▸ Nat.mod_lt _ (two_pow_bits_pos w))

end Sys2Proof.Proofs

/-! PROOFS. What the flags of additions and subtractions mean (spec/41_arithmetic.md sections 1 and 2; 92 D14). -/

namespace Sys2Proof.Proofs

open Sys2Proof Sys2Proof.Machine Sys2Proof.Claims

/-- The low w bits an addition leaves in its destination. -/
theorem addsInto_low {w : Width} {dst : RegIdx} {b cin : Nat} {s t : State} (h : AddsInto w dst b cin s t) :
    low w (t.reg dst) = (low w (s.reg dst) + b + cin) % 2 ^ bits w :=
  low_of_kept h.1 (Nat.mod_lt _ (two_pow_bits_pos w))

theorem addsInto_flags {w : Width} {dst : RegIdx} {b cin : Nat} {s t : State} (h : AddsInto w dst b cin s t) :
    AdderFlags w (low w (s.reg dst)) b cin t.flags := by
  obtain ⟨-, -, hf, -⟩ := h
  exact hf

/-- Adding the negation of d carries out exactly when nothing is borrowed, but never when d is 0 (D14). -/
theorem carry_of_negation {m a d : Nat} (ha : a < m) (hd : d < m) : a + (m - d) % m + 0 > m - 1 ↔ d ≠ 0 ∧ d ≤ a := by
  rcases Nat.eq_zero_or_pos d with rfl | pos
  · rw [Nat.sub_zero, Nat.mod_self]
    omega
  · rw [Nat.mod_eq_of_lt (by omega)]
    omega

/-- Adding the negation of d gives 0 exactly to d itself. -/
theorem zero_of_negation {m a d : Nat} (ha : a < m) (hd : d < m) : (a + (m - d) % m + 0) % m = 0 ↔ a = d := by
  rcases Nat.eq_zero_or_pos d with rfl | pos
  · rw [Nat.sub_zero, Nat.mod_self, Nat.add_zero, Nat.mod_eq_of_lt ha]
  · rw [Nat.mod_eq_of_lt (show m - d < m by omega), Nat.add_zero]
    rcases Nat.lt_or_ge a d with h | h
    · rw [Nat.mod_eq_of_lt (by omega)]
      omega
    · rw [Nat.mod_eq_sub_mod (by omega), Nat.mod_eq_of_lt (by omega)]
      omega

/-- Adding the negation of d subtracts d. -/
theorem sum_of_negation {m a d : Nat} (ha : a < m) (hd : d < m) : (a + (m - d) % m + 0 + d) % m = a := by
  rcases Nat.eq_zero_or_pos d with rfl | pos
  · rw [Nat.sub_zero, Nat.mod_self]
    exact Nat.mod_eq_of_lt ha
  · rw [Nat.mod_eq_of_lt (show m - d < m by omega), show a + (m - d) + 0 + d = a + m by omega, Nat.add_mod_right,
      Nat.mod_eq_of_lt ha]

/-- The result and the carry of a w-bit addition are the sum (R100). -/
theorem mod_add_carry {m n : Nat} (h : n < 2 * m) : n % m + (decide (n > m - 1)).toNat * m = n := by
  rcases Nat.lt_or_ge n m with lt | ge
  · rw [Nat.mod_eq_of_lt lt, decide_eq_false (by omega), Bool.toNat_false, Nat.zero_mul, Nat.add_zero]
  · rw [Nat.mod_eq_sub_mod ge, Nat.mod_eq_of_lt (by omega), decide_eq_true (by omega), Bool.toNat_true]
    omega

/-- Settles O9: SUB and CMP add the negation of the source, SUBC its complement; the laws of such additions read off. -/
theorem subtractionCarryIsNoBorrow : Obligations.SubtractionCarryIsNoBorrow := by
  intro w src dst s
  have ha := low_lt w (s.reg dst)
  have hs := low_lt w (s.operand src)
  have carry := carry_of_negation ha hs
  have zero := zero_of_negation ha hs
  refine ⟨?sub, ?cmp, ?subc⟩
  case sub =>
    obtain ⟨t, he, h⟩ := exec_sub w src dst s
    obtain ⟨hc, hz, -⟩ := addsInto_flags h
    refine ⟨t, he, ?_, hc.trans (decide_eq_decide.2 carry), hz.trans (decide_eq_decide.2 zero)⟩
    rw [addsInto_low h, Nat.mod_add_mod, sum_of_negation ha hs]
  case cmp =>
    obtain ⟨-, hcmp⟩ := subAndCmp
    obtain ⟨t, he, -, ⟨hc, hz, -⟩, -⟩ := hcmp w src dst s
    exact ⟨t, he, hc.trans (decide_eq_decide.2 carry), hz.trans (decide_eq_decide.2 zero)⟩
  case subc =>
    obtain ⟨t, he, h⟩ := exec_subc w src dst s
    obtain ⟨hc, -⟩ := addsInto_flags h
    refine ⟨t, he, ?_, hc.trans (decide_eq_decide.2 (by omega))⟩
    rw [addsInto_low h, Nat.add_assoc, Nat.mod_add_mod, ← Nat.add_mod_right (low w (s.reg dst) + s.flags.c.toNat)]
    congr 1
    omega

theorem signed_eq (w : Width) (r : Nat) : signed w r = if 2 ^ (bits w - 1) ≤ r then (r : Int) - 2 ^ bits w else r := by
  simp only [signed, top, decide_eq_true_iff]

/-- The overflow flag of the adder is signed overflow (R100). -/
theorem overflow_is_signed {w : Width} {a b cin : Nat} (ha : a < 2 ^ bits w) (hb : b < 2 ^ bits w) (hcin : cin ≤ 1) :
    ((top w a == top w b) && (top w ((a + b + cin) % 2 ^ bits w) != top w a)) =
      decide (signed w a + signed w b + cin < -2 ^ (bits w - 1) ∨ 2 ^ (bits w - 1) ≤ signed w a + signed w b + cin) := by
  rw [Bool.eq_iff_iff]
  simp only [Bool.and_eq_true, beq_iff_eq, bne_iff_ne, ne_eq, top, decide_eq_decide, decide_eq_true_iff, signed_eq]
  cases w <;>
  · simp only [bits, Nat.reduceSub] at *
    omega

/-- Without overflow the result, read as signed, is the sum. -/
theorem signed_sum {w : Width} {a b cin : Nat} (ha : a < 2 ^ bits w) (hb : b < 2 ^ bits w)
    (low : -2 ^ (bits w - 1) ≤ signed w a + signed w b + cin) (high : signed w a + signed w b + cin < 2 ^ (bits w - 1)) :
    signed w ((a + b + cin) % 2 ^ bits w) = signed w a + signed w b + cin := by
  simp only [signed_eq] at *
  cases w <;>
  · simp only [bits, Nat.reduceSub] at *
    omega

/-- Settles O10: both instructions add the operands and a carry-in of at most 1; the flags of such an addition read off. -/
theorem additionOverflowIsSigned : Obligations.AdditionOverflowIsSigned := by
  intro w src dst s t cin h
  have adds : AddsInto w dst (low w (s.operand src)) cin s t ∧ cin ≤ 1 := by
    rcases h with ⟨he, rfl⟩ | ⟨he, rfl⟩
    · obtain ⟨u, hu, h⟩ := exec_add w src dst s
      exact ⟨Host.Outcome.next.inj (he.symm.trans hu) ▸ h, Nat.zero_le 1⟩
    · obtain ⟨u, hu, h⟩ := exec_addc w src dst s
      exact ⟨Host.Outcome.next.inj (he.symm.trans hu) ▸ h, Bool.toNat_le _⟩
  obtain ⟨h, hcin⟩ := adds
  obtain ⟨hc, -, -, hv⟩ := addsInto_flags h
  have ha := low_lt w (s.reg dst)
  have hs := low_lt w (s.operand src)
  rw [overflow_is_signed ha hs hcin] at hv
  refine ⟨hv, fun hv0 => ?_, ?_⟩
  · rw [hv, decide_eq_false_iff_not, not_or, not_lt, not_le] at hv0
    rw [addsInto_low h, signed_sum ha hs hv0.1 hv0.2]
  · rw [addsInto_low h, hc, mod_add_carry (by omega)]

end Sys2Proof.Proofs

/-! PROOFS. DADD digit by digit, and as decimal addition (spec/41_arithmetic.md R108; 92 D15). -/

namespace Sys2Proof.Proofs

open Sys2Proof Sys2Proof.Machine Sys2Proof.Claims

/-! ## Digits -/

theorem digit_zero (v : Nat) : digit 0 v = v % 16 := by rw [digit, Nat.pow_zero, Nat.div_one]

theorem digit_succ (i v : Nat) : digit (i + 1) v = digit i (v / 16) := by
  rw [digit, digit, Nat.div_div_eq_div_mul, Nat.pow_succ']

/-- The digits of a number below a power of 16 do not see what is added above it. -/
theorem digit_mod {n i : Nat} (v : Nat) (h : i < n) : digit i (v % 16 ^ n) = digit i v := by
  obtain ⟨k, rfl⟩ : ∃ k, n = i + (k + 1) := ⟨n - i - 1, by omega⟩
  rw [digit, digit, Nat.pow_add, Nat.mod_mul_right_div_self, Nat.mod_mod_of_dvd _ (Dvd.intro_left _ (Nat.pow_succ 16 k).symm)]

/-! ## The decimal adder -/

/-- The digit DADD leaves, and its carry, as the statement writes them. -/
theorem bcdDigit_eq (x y : Nat) (c : Bool) : bcdDigit x y c =
    (if x + y + c.toNat > 9 then (x + y + c.toNat - 10) % 16 else x + y + c.toNat, decide (x + y + c.toNat > 9)) := by
  simp only [bcdDigit]
  split <;> simp [*]

theorem bcdDigit_lt (x y : Nat) (c : Bool) : (bcdDigit x y c).1 < 16 := by
  rw [bcdDigit_eq]
  dsimp only
  split
  · exact Nat.mod_lt _ (by decide)
  · omega

/-- A carry chain of n decimal digits, from the operands' digits to the result's (R108). -/
def CarryChain (n a s r : Nat) (c : Nat → Bool) : Prop :=
  ∀ i < n,
    let d := digit i a + digit i s + (c i).toNat
    digit i r = (if d > 9 then (d - 10) % 16 else d) ∧ c (i + 1) = decide (d > 9)

/-- The chain with a carry put before it. -/
def carryBefore (b : Bool) (c : Nat → Bool) : Nat → Bool
  | 0 => b
  | i + 1 => c i

/-- The decimal adder has a carry chain from its carry-in to its carry-out, by induction on its digits. -/
theorem bcdAdd_chain (n : Nat) : ∀ (a s : Nat) (cin : Bool), ∃ c : Nat → Bool,
    c 0 = cin ∧ CarryChain n a s (bcdAdd n a s cin).1 c ∧ (bcdAdd n a s cin).2 = c n := by
  induction n with
  | zero => exact fun a s cin => ⟨fun _ => cin, rfl, fun i hi => absurd hi i.not_lt_zero, rfl⟩
  | succ n ih =>
    intro a s cin
    obtain ⟨c, hc, chain, last⟩ := ih (a / 16) (s / 16) (bcdDigit (a % 16) (s % 16) cin).2
    have lt := bcdDigit_lt (a % 16) (s % 16) cin
    refine ⟨carryBefore cin c, rfl, fun i hi => ?_, last⟩
    cases i with
    | zero =>
      have low : digit 0 (bcdAdd (n + 1) a s cin).1 = (bcdDigit (a % 16) (s % 16) cin).1 := by
        rw [digit_zero, bcdAdd, Nat.add_mul_mod_self_left, Nat.mod_eq_of_lt lt]
      rw [low, bcdDigit_eq, digit_zero, digit_zero]
      exact ⟨rfl, hc.trans (congrArg Prod.snd (bcdDigit_eq ..))⟩
    | succ i =>
      have high : digit (i + 1) (bcdAdd (n + 1) a s cin).1 =
          digit i (bcdAdd n (a / 16) (s / 16) (bcdDigit (a % 16) (s % 16) cin).2).1 := by
        rw [digit_succ, bcdAdd, Nat.add_mul_div_left _ _ (by decide), Nat.div_eq_of_lt lt, Nat.zero_add]
      rw [high, digit_succ, digit_succ]
      exact chain i (Nat.lt_of_succ_lt_succ hi)

theorem bcdAdd_lt (n : Nat) : ∀ (a s : Nat) (cin : Bool), (bcdAdd n a s cin).1 < 16 ^ n := by
  induction n with
  | zero => exact fun _ _ _ => Nat.one_pos
  | succ n ih =>
    intro a s cin
    have lt := bcdDigit_lt (a % 16) (s % 16) cin
    have rest := ih (a / 16) (s / 16) (bcdDigit (a % 16) (s % 16) cin).2
    rw [bcdAdd, Nat.pow_succ']
    dsimp only
    omega

/-! ## DADD -/

theorem two_pow_bits_eq (w : Width) : 2 ^ bits w = 16 ^ (bits w / 4) := by cases w <;> rfl

/-- The digits of a register's low w bits are its lowest digits. -/
theorem digit_low {w : Width} {i : Nat} (hi : i < bits w / 4) (v : Word) : digit i (low w v) = digit i v.toNat := by
  rw [low, two_pow_bits_eq, digit_mod _ hi]

/-- The result of DADD, as a number. -/
theorem aluDadd_r_toNat (w : Width) (a s : Word) (cin : Bool) :
    (aluDadd w a s cin).r.toNat = (bcdAdd (bits w / 4) a.toNat s.toNat cin).1 := by
  have lt := bcdAdd_lt (bits w / 4) a.toNat s.toNat cin
  rw [← two_pow_bits_eq] at lt
  exact Nat.mod_eq_of_lt (lt.trans_le (Nat.pow_le_pow_right (by decide) (by cases w <;> decide)))

theorem aluDadd_r_lt (w : Width) (a s : Word) (cin : Bool) : (aluDadd w a s cin).r.toNat < 2 ^ bits w := by
  rw [aluDadd_r_toNat, two_pow_bits_eq]
  exact bcdAdd_lt ..

/-- Settles O11: the chain of the decimal adder, its operands' and its result's digits read in the registers. -/
theorem daddDigitByDigit : Obligations.DaddDigitByDigit := by
  intro w src dst s
  refine ⟨_, rfl, ?digits, ?high, otherRegs_writeW s w dst _ _, ?zero, rfl, rfl, rfl, onlyRegsAndFlags_writeW s w dst _ _⟩
  all_goals
    have lt := aluDadd_r_lt w (s.aOperand w dst) (s.sOperand w src) s.flags.c
    rw [State.aluWrite, State.setFlags_reg, writeW_reg, if_pos rfl]
  case digits =>
    obtain ⟨c, hc, chain, last⟩ := bcdAdd_chain (bits w / 4) (s.aOperand w dst).toNat (s.sOperand w src).toNat s.flags.c
    refine ⟨c, hc, fun i hi => ?_, last⟩
    have step := chain i hi
    rw [← aluDadd_r_toNat, ← low_merge (s.reg dst) lt, aOperand_toNat, sOperand_toNat] at step
    rwa [digit_low hi, digit_low hi, digit_low hi] at step
  case high => exact merge_div _ lt
  case zero =>
    rw [low_merge _ lt]
    exact beq_zero_eq _

/-- One digit: with decimal operands it is decimal, and with its carry it is the sum. -/
theorem decimal_digit {d r : Nat} {carry : Bool} (hd : d ≤ 19) (hr : r = if d > 9 then (d - 10) % 16 else d)
    (hcarry : carry = decide (d > 9)) : r ≤ 9 ∧ r + 10 * carry.toNat = d := by
  by_cases h : d > 9 <;> simp only [h, if_true, if_false, decide_true, decide_false] at hr hcarry <;>
    rw [hcarry, hr] <;> simp only [Bool.toNat_true, Bool.toNat_false] <;> omega

/-- On decimal digits a carry chain keeps to decimal digits and adds the numbers they stand for. -/
theorem decimal_of_chain {a s r : Nat} {c : Nat → Bool} : ∀ {n : Nat}, CarryChain n a s r c →
    (∀ i < n, digit i a ≤ 9 ∧ digit i s ≤ 9) →
    (∀ i < n, digit i r ≤ 9) ∧ decimal n r + (c n).toNat * 10 ^ n = decimal n a + decimal n s + (c 0).toNat := by
  intro n
  induction n with
  | zero => exact fun _ _ => ⟨fun i hi => absurd hi i.not_lt_zero, by simp [decimal]⟩
  | succ n ih =>
    intro chain digits
    obtain ⟨small, sum⟩ := ih (fun i hi => chain i (Nat.lt_succ_of_lt hi)) fun i hi => digits i (Nat.lt_succ_of_lt hi)
    obtain ⟨hr, hcarry⟩ := chain n n.lt_succ_self
    obtain ⟨da, ds⟩ := digits n n.lt_succ_self
    have hc := Bool.toNat_le (c n)
    obtain ⟨small', one⟩ := decimal_digit (by omega) hr hcarry
    refine ⟨fun i hi => ?_, ?_⟩
    · rcases Nat.lt_succ_iff_lt_or_eq.1 hi with hi | rfl
      · exact small i hi
      · exact small'
    · calc decimal n r + digit n r * 10 ^ n + (c (n + 1)).toNat * 10 ^ (n + 1)
          = decimal n r + (digit n r + 10 * (c (n + 1)).toNat) * 10 ^ n := by ring
        _ = decimal n r + (c n).toNat * 10 ^ n + (digit n a + digit n s) * 10 ^ n := by rw [one]; ring
        _ = decimal n a + digit n a * 10 ^ n + (decimal n s + digit n s * 10 ^ n) + (c 0).toNat := by rw [sum]; ring

/-- Settles O12: the carry chain of O11, on decimal digits. -/
theorem daddIsDecimalAddition : Obligations.DaddIsDecimalAddition := by
  intro w src dst s t decimals he
  obtain ⟨u, hu, ⟨c, hc, chain, last⟩, -⟩ := daddDigitByDigit w src dst s
  obtain rfl : t = u := Host.Outcome.next.inj (he.symm.trans hu)
  rw [last, ← hc]
  exact decimal_of_chain chain decimals

end Sys2Proof.Proofs

/-! PROOFS. The words of the statements, in the encoder's formats; addition and subtraction settled
(spec/30_encoding.md R71; spec/41_arithmetic.md). -/

namespace Sys2Proof.Proofs

open Sys2Proof Sys2Proof.Machine Sys2Proof.Claims

/-- A word of the register format, its fields given as bits (R71). -/
theorem register_word (op : Byte) (rc wb : Bool) (src dst : RegIdx) :
    op ++ BitVec.ofBool rc ++ BitVec.ofBool wb ++ src ++ dst =
      encRegister op (if wb then .byte else .word) (if rc then .const src else .reg src) dst := by
  cases rc <;> cases wb <;> rfl

/-- An instruction of the register format whose words decode to it has that form (R71). -/
theorem registerForm {op : Byte} {mk : Width → Operand → RegIdx → Instr}
    (back : ∀ w s d, decodeWord (encRegister op w s d) = mk w s d) : RegisterForm op mk := by
  intro rc wb src dst
  rw [register_word, back]

/-- Settles O5: each word evaluated. -/
theorem sampleWordsDecode : Obligations.SampleWordsDecode := by
  unfold Obligations.SampleWordsDecode
  decide

/-- Settles O6: both words round-trip, and both instructions add into the destination. -/
theorem addAndAddc : Obligations.AddAndAddc :=
  ⟨registerForm fun w s d => decodeEncodeRoundTrip (.add w s d) rfl,
    registerForm fun w s d => decodeEncodeRoundTrip (.addc w s d) rfl, exec_add, exec_addc⟩

/-- Settles O7: the word round-trips, and SUBC adds the complement into the destination. -/
theorem subcAddsComplement : Obligations.SubcAddsComplement :=
  ⟨registerForm fun w s d => decodeEncodeRoundTrip (.subc w s d) rfl, exec_subc⟩

end Sys2Proof.Proofs

/-! PROOFS. Equations for what the model defines by a case split: the transfer by its control (spec/45_load_store.md R140),
the bit-index instructions by their mask (spec/42_logic_bit.md R114), BL by its offset (spec/46_branch.md R158). -/

namespace Sys2Proof.Proofs

open Sys2Proof Sys2Proof.Machine

/-! ## The transfer -/

section Transfer
variable {s : State}

theorem transfer_readWord (h : s.dctrl = .readWord) : s.transfer =
    (s.setDmbr (Memory.readWord s.dm s.dmar)).setReg s.prev.instr.fields.dst (Memory.readWord s.dm s.dmar) := by
  simp only [State.transfer, h]

theorem transfer_readByte (h : s.dctrl = .readByte) : s.transfer =
    (s.setDmbr (Memory.readByte s.dm s.dmar)).writeW .byte s.prev.instr.fields.dst (Memory.readByte s.dm s.dmar) := by
  simp only [State.transfer, h]

theorem transfer_writeWord (h : s.dctrl = .writeWord) : s.transfer =
    (s.setDmbr (s.reg s.prev.instr.fields.src)).setDm (Memory.writeWord s.dm s.dmar (s.reg s.prev.instr.fields.src)) := by
  simp only [State.transfer, h]

theorem transfer_writeByte (h : s.dctrl = .writeByte) : s.transfer =
    (s.setDmbr (s.reg s.prev.instr.fields.src)).setDm (Memory.writeByte s.dm s.dmar (s.reg s.prev.instr.fields.src)) := by
  simp only [State.transfer, h]

end Transfer

/-! ## The bit-index instructions -/

section BitIndex
variable {s : State} {w : Width} {src : Operand} (dst : RegIdx)

theorem bitMask_in_range (h : (s.operand src).toNat < bits w) :
    s.bitMask w src = some (BitVec.twoPow 16 (s.operand src).toNat) := if_neg (Nat.not_le.2 h)

theorem bitMask_out_of_range (h : bits w ≤ (s.operand src).toNat) : s.bitMask w src = none := if_pos h

theorem exec_bit_masked {m : Word} (h : s.bitMask w src = some m) :
    exec (.bit w src dst) s = .next (s.setFlags (s.flags.ofResult w (s.aOperand w dst &&& m))) := by
  simp only [exec, execBit, h]

theorem exec_bic_masked {m : Word} (h : s.bitMask w src = some m) :
    exec (.bic w src dst) s = .next (s.logicWrite w dst (s.aOperand w dst &&& ~~~m)) := by
  simp only [exec, execBic, h]

theorem exec_bis_masked {m : Word} (h : s.bitMask w src = some m) :
    exec (.bis w src dst) s = .next (s.logicWrite w dst (s.aOperand w dst ||| m)) := by
  simp only [exec, execBis, h]

theorem exec_bit_fails (h : s.bitMask w src = none) : exec (.bit w src dst) s = .next (s.fail .bitIndexOutOfRange) := by
  simp only [exec, execBit, h]

theorem exec_bic_fails (h : s.bitMask w src = none) : exec (.bic w src dst) s = .next (s.fail .bitIndexOutOfRange) := by
  simp only [exec, execBic, h]

theorem exec_bis_fails (h : s.bitMask w src = none) : exec (.bis w src dst) s = .next (s.fail .bitIndexOutOfRange) := by
  simp only [exec, execBis, h]

end BitIndex

/-! ## BL, MOV and SWAP -/

theorem exec_bl_zero (s : State) : exec (.bl 0) s = .next s := rfl

theorem exec_bl_taken {o : Word} (h : o ≠ 0) (s : State) :
    exec (.bl o) s = .next (((s.setReg lrIdx (s.reg pcIdx - 2)).setReg pcIdx (s.branchTarget o)).setBq [true]) := by
  simp only [exec, execBl, if_neg h, take_eq]

/-- The queue after a register write: re-armed when it was a write of R7 (43 R120). -/
def flushIf (s : State) (c : Prop) [Decidable c] : State := if c then s.setBq [true] else s

theorem exec_mov (w : Width) (src dst : RegIdx) (s : State) :
    exec (.mov w src dst) s = .next (flushIf (s.writeW w dst (s.reg src)) (dst = pcIdx)) := by
  simp only [exec, execMov, flushQueue_eq, flushIf]

theorem exec_swap (src dst : RegIdx) (s : State) : exec (.swap src dst) s =
    .next (flushIf ((s.setReg src (s.reg dst)).setReg dst (s.reg src)) (src = pcIdx ∨ dst = pcIdx)) := by
  simp only [exec, execSwap, flushQueue_eq, flushIf]

/-! ## LD and ST -/

theorem indirectAccess_request {dec inc : Bool} (h : (inc && dec) = false) (s : State) (prpo : Bool) (w : Width) (r : RegIdx)
    (c : MemCtrl) : s.indirectAccess prpo dec inc w r c =
      (s.setReg r (s.reg r + baseDelta w dec inc)).requestAccess c (s.indirectAddress prpo dec inc w r) := by
  rw [State.indirectAccess, if_neg (by rw [h]; exact Bool.false_ne_true), State.updateBase]

/-- The base after its update, as the statements write it (R138). -/
theorem add_baseDelta (w : Width) (dec inc : Bool) (base : Word) : base + baseDelta w dec inc =
    if inc then base + (if w = .word then 2 else 1) else if dec then base - (if w = .word then 2 else 1) else base := by
  have size : accessSize w = if w = .word then 2 else 1 := by cases w <;> rfl
  rw [← size]
  cases inc <;> cases dec
  · exact BitVec.add_zero base
  · exact (BitVec.sub_eq_add_neg base _).symm
  · rfl
  · rfl

/-- The effective address of LD and ST, as the statements write it (R138). -/
theorem indirectAddress_eq (s : State) (prpo dec inc : Bool) (w : Width) (b : RegIdx) :
    s.indirectAddress prpo dec inc w b = Claims.effective prpo dec inc w (s.reg b) := by
  cases prpo
  · rfl
  · exact add_baseDelta w dec inc (s.reg b)

theorem readCtrl_eq (w : Width) : readCtrl w = if w = .word then .readWord else .readByte := by cases w <;> rfl

theorem writeCtrl_eq (w : Width) : writeCtrl w = if w = .word then .writeWord else .writeByte := by cases w <;> rfl

/-! ## The step of a live machine -/

/-- A cycle always answers a next state. -/
theorem step_next_of_live {s : State} (h : s.Live) : ∃ t, step s = .next t := by
  rw [step_live s h]
  rcases hc : s.cycleState with _ | _ | _
  · exact ⟨_, cycle_start s _ hc⟩
  · obtain ⟨t, he⟩ := execWith_next Config.params s.tick.cur.instr s.tick
    exact ⟨_, (cycle_wait0 s _ hc).trans (wait0_next _ he)⟩
  · exact ⟨_, cycle_wait1 s _ hc⟩

/-- A step answers a fault only as the fault the machine stopped with (60 R166). -/
theorem faulted_of_step_fault {s : State} {r : Fault} (h : step s = .fault r) : s.faulted = some r := by
  rcases hf : s.faulted with _ | q
  · cases hr : s.running
    · rw [step_idle s hr hf] at h
      cases h
    · obtain ⟨t, ht⟩ := step_next_of_live ⟨hr, hf⟩
      rw [ht] at h
      cases h
  · rw [step_faulted s q hf] at h
    injection h with h
    rw [h]

end Sys2Proof.Proofs

/-! PROOFS. Nothing reads SLP (spec/10_state.md section 3; 92 D28). -/

namespace Sys2Proof.Proofs

open Sys2Proof Sys2Proof.Machine Sys2Proof.Claims

/-! ## The stages of a cycle with another SLP -/

section Stages
variable (p : Config.Params) (s : State) (b : Bool)

theorem bqInsertAll_withSlp (l : List Bool) : ∀ s : State, (withSlp s b).bqInsertAll p l = withSlp (s.bqInsertAll p l) b := by
  induction l with
  | nil => exact fun _ => rfl
  | cons e l ih =>
    intro s
    simp only [State.bqInsertAll]
    change (if s.bq.length = p.bqCapacity then _ else _) = _
    split
    · rfl
    · exact ih (s.setBq (s.bq ++ [e]))

theorem transfer_withSlp : (withSlp s b).transfer = withSlp s.transfer b := by
  cases h : s.dctrl
  case readWord => rw [transfer_readWord h, transfer_readWord (s := withSlp s b) h]; rfl
  case readByte => rw [transfer_readByte h, transfer_readByte (s := withSlp s b) h]; rfl
  case writeWord => rw [transfer_writeWord h, transfer_writeWord (s := withSlp s b) h]; rfl
  case writeByte => rw [transfer_writeByte h, transfer_writeByte (s := withSlp s b) h]; rfl

theorem commit_withSlp : (withSlp s b).commit p = withSlp (s.commit p) b := by
  unfold State.commit
  rw [transfer_withSlp]
  change (if s.prev.pending = true then if (s.dctrl.isWord && s.dmar.getLsbD 0) = true then _ else _ else _) = _
  split
  · split <;> rfl
  · rfl

theorem wait1_withSlp : (withSlp s b).wait1 p = withSlp (s.wait1 p) b := by
  have staged : (withSlp s b).fetch0.decodeStage.commit p = withSlp (s.fetch0.decodeStage.commit p) b :=
    commit_withSlp p s.fetch0.decodeStage b
  rcases hf : (s.fetch0.decodeStage.commit p).faulted with _ | r
  · rw [wait1_next p s hf, wait1_next p (withSlp s b) (staged ▸ hf), staged]
    rfl
  · rw [wait1_faulted p s r hf, wait1_faulted p (withSlp s b) r (staged ▸ hf), staged]

theorem fetch1_withSlp : (withSlp s b).fetch1 p = withSlp (s.fetch1 p) b := by
  cases h : s.imar.getLsbD 0
  · rw [fetch1_even p s h, fetch1_even p (withSlp s b) h, suppresses_eq, suppresses_eq]
    rfl
  · rw [fetch1_odd p s h, fetch1_odd p (withSlp s b) h]
    rfl

theorem haltCheck_withSlp : (withSlp s b).haltCheck p = withSlp (s.haltCheck p) b := by
  unfold State.haltCheck
  change (if s.breakpointHit then _ else if p.failurePolicy = .halt ∧ s.failedThisCycle = true then _
    else if p.haltOnZeroFetch && s.zeroFetchedThisCycle then _ else _) = _
  split
  · rfl
  · split
    · rfl
    · split <;> rfl

theorem finishWait0_withSlp : (withSlp s b).finishWait0 p = withSlp (s.finishWait0 p) b := by
  rcases hf : s.faulted with _ | r
  · cases h : s.imar.getLsbD 0
    · rw [finishWait0_even p s hf h, finishWait0_even p (withSlp s b) hf h]
      change (((withSlp (s.setPrev s.cur) b).fetch1 p).haltCheck p).enter .wait1 = _
      rw [fetch1_withSlp, haltCheck_withSlp]
      rfl
    · rw [finishWait0_odd p s hf h, finishWait0_odd p (withSlp s b) hf h]
      rfl
  · rw [finishWait0_faulted p s r hf, finishWait0_faulted p (withSlp s b) r hf]

end Stages

/-! ## The compute phase with another SLP -/

theorem branchIf_withSlp (s : State) (b c : Bool) (o : Word) : (withSlp s b).branchIf c o = withSlp (s.branchIf c o) b := by
  cases c
  · rfl
  · exact (take_eq _ _).trans (congrArg (withSlp · b) (take_eq s _).symm)

theorem indirectAccess_withSlp (s : State) (b : Bool) (prpo dec inc : Bool) (w : Width) (r : RegIdx) (c : MemCtrl) :
    (withSlp s b).indirectAccess prpo dec inc w r c = withSlp (s.indirectAccess prpo dec inc w r c) b := by
  unfold State.indirectAccess
  split <;> rfl

theorem writeW_withSlp (s : State) (b : Bool) (w : Width) (i : RegIdx) (v : Word) :
    (withSlp s b).writeW w i v = withSlp (s.writeW w i v) b := by cases w <;> rfl

theorem flushIf_withSlp (s : State) (b : Bool) (c : Prop) [Decidable c] :
    flushIf (withSlp s b) c = withSlp (flushIf s c) b := by
  unfold flushIf
  split <;> rfl

/-- Instructions that write SLP write it from SLP alone; every other one keeps it and reads the rest (R26, D28). -/
theorem exec_withSlp (i : Instr) (s t : State) (b : Bool) (h : exec i s = .next t) :
    ∃ c, exec i (withSlp s b) = .next (withSlp t c) := by
  cases i
  case setcc m =>
    obtain rfl := Host.Outcome.next.inj h
    exact ⟨b || m.getLsbD 3, rfl⟩
  case clrcc m =>
    obtain rfl := Host.Outcome.next.inj h
    exact ⟨b && !m.getLsbD 3, rfl⟩
  all_goals refine ⟨b, ?_⟩
  case bl o =>
    by_cases ho : o = 0
    · subst ho
      obtain rfl := Host.Outcome.next.inj h
      rfl
    · rw [exec_bl_taken ho] at h ⊢
      obtain rfl := Host.Outcome.next.inj h
      rfl
  case bit w src dst =>
    rcases hm : s.bitMask w src with _ | m
    · rw [exec_bit_fails dst hm] at h
      obtain rfl := Host.Outcome.next.inj h
      exact exec_bit_fails (s := withSlp s b) dst hm
    · rw [exec_bit_masked dst hm] at h
      obtain rfl := Host.Outcome.next.inj h
      exact exec_bit_masked (s := withSlp s b) dst hm
  case bic w src dst =>
    rcases hm : s.bitMask w src with _ | m
    · rw [exec_bic_fails dst hm] at h
      obtain rfl := Host.Outcome.next.inj h
      exact exec_bic_fails (s := withSlp s b) dst hm
    · rw [exec_bic_masked dst hm] at h
      obtain rfl := Host.Outcome.next.inj h
      exact (exec_bic_masked (s := withSlp s b) dst hm).trans (by cases w <;> rfl)
  case bis w src dst =>
    rcases hm : s.bitMask w src with _ | m
    · rw [exec_bis_fails dst hm] at h
      obtain rfl := Host.Outcome.next.inj h
      exact exec_bis_fails (s := withSlp s b) dst hm
    · rw [exec_bis_masked dst hm] at h
      obtain rfl := Host.Outcome.next.inj h
      exact (exec_bis_masked (s := withSlp s b) dst hm).trans (by cases w <;> rfl)
  case mov w src dst =>
    rw [exec_mov] at h ⊢
    obtain rfl := Host.Outcome.next.inj h
    rw [← flushIf_withSlp, ← writeW_withSlp]
    rfl
  case swap src dst =>
    rw [exec_swap] at h ⊢
    obtain rfl := Host.Outcome.next.inj h
    rw [← flushIf_withSlp]
    rfl
  all_goals obtain rfl := Host.Outcome.next.inj h
  case cex c tc fc => exact congrArg _ (bqInsertAll_withSlp _ b _ s)
  case beq | bne | bc | bnc | bn | bge | blt | bra => exact congrArg _ (branchIf_withSlp s b _ _)
  case ld | st => exact congrArg _ (indirectAccess_withSlp s b ..)
  case add w _ _ | addc w _ _ | sub w _ _ | subc w _ _ | dadd w _ _ | xor w _ _ | and w _ _ | or w _ _ | sra w _ | rrc w _ =>
    cases w <;> rfl
  all_goals rfl

/-- Settles O53: every stage of a cycle commutes with a change of SLP. -/
theorem sleepFlagIsNeverRead : Obligations.SleepFlagIsNeverRead := by
  intro s b
  refine ⟨fun t h => ?next, fun r h => ?fault⟩
  case next =>
    rcases step_cases h with ⟨rfl, hr, hf⟩ | ⟨hl, hc, rfl⟩ | ⟨hl, hc, rfl⟩ | ⟨hl, hc, u, he, rfl⟩
    · exact ⟨b, step_idle (withSlp t b) hr hf⟩
    · refine ⟨b, ?_⟩
      rw [step_live (withSlp s b) hl, cycle_start (withSlp s b) _ hc, ← wait1_withSlp]
      rfl
    · refine ⟨b, ?_⟩
      rw [step_live (withSlp s b) hl, cycle_wait1 (withSlp s b) _ hc, ← wait1_withSlp]
      rfl
    · obtain ⟨c, hu⟩ := exec_withSlp _ _ _ b he
      exact ⟨c, (step_wait0 (s := withSlp s b) hl hc hu).trans (congrArg _ (finishWait0_withSlp _ u c))⟩
  case fault => exact step_faulted (withSlp s b) r (faulted_of_step_fault (s := s) h)

end Sys2Proof.Proofs

/-! PROOFS. Every step keeps the invariant (spec/10_state.md sections 5 to 7; spec/70_reset_and_hazards.md section 1). -/

namespace Sys2Proof.Proofs

open Sys2Proof Sys2Proof.Machine

variable {p : Config.Params} {s : State}

/-- A record keeps its form when its pending bit alone changes. -/
theorem decoded_ok_of_eq {d e : Decoded} (h : d.Ok p) (instr : e.instr = d.instr) (opcode : e.opcode = d.opcode)
    (addr : e.addr = d.addr) : e.Ok p :=
  ⟨by rw [instr, opcode, h.decoded], addr ▸ h.even, fun ha => opcode.trans (h.untagged (addr ▸ ha))⟩

/-- The part of the invariant that does not depend on where in a slot the machine is. -/
structure Lasting (p : Config.Params) (s : State) : Prop where
  imWf : Memory.wf s.im
  dmWf : Memory.wf s.dm
  queue : s.bq.length ≤ p.bqCapacity
  fetchCtrl : s.ictrl = .readWord
  untagged : s.irTag = none → s.ir = p.nopWord
  evenTag : EvenTag s.irTag
  cur : s.cur.Ok p
  prev : s.prev.Ok p

theorem lasting_of_inv (h : Inv p s) : Lasting p s :=
  ⟨h.imWf, h.dmWf, h.queue, h.fetchCtrl, h.untagged, h.evenTag, h.cur, h.prev⟩

/-- A running machine that has stopped with a fault keeps the invariant if it keeps its lasting part (60 R166). -/
theorem inv_of_faulted (h : Lasting p s) {r : Fault} (hf : s.faulted = some r) (hr : s.running = true) : Inv p s where
  imWf := h.imWf
  dmWf := h.dmWf
  queue := h.queue
  fetchCtrl := h.fetchCtrl
  untagged := h.untagged
  evenTag := h.evenTag
  cur := h.cur
  prev := h.prev
  wait0 hn := nomatch hf.symm.trans hn
  idle hn := nomatch hr.symm.trans hn
  between hn := nomatch hf.symm.trans hn

/-- A running machine entering WAIT_0. -/
theorem inv_enter_wait0 (h : Lasting p s) (hr : s.running = true) (hcur : s.cur.pending = false)
    (hprev : s.prev.pending = false) (hflush : s.flushPending = s.cur.instr.requestsFlush) : Inv p (s.enter .wait0) where
  imWf := h.imWf
  dmWf := h.dmWf
  queue := h.queue
  fetchCtrl := h.fetchCtrl
  untagged := h.untagged
  evenTag := h.evenTag
  cur := h.cur
  prev := h.prev
  wait0 _ _ := ⟨hcur, hprev, hflush⟩
  idle hn := nomatch hr.symm.trans hn
  between _ hc := absurd rfl hc

/-- A machine between slots, running or halted. -/
theorem inv_between (h : Lasting p s) (hc : s.cycleState ≠ .wait0) (hflush : s.flushPending = false)
    (hprev : s.prev.pending = true → accessCtrl s.prev.instr = some s.dctrl) : Inv p s where
  imWf := h.imWf
  dmWf := h.dmWf
  queue := h.queue
  fetchCtrl := h.fetchCtrl
  untagged := h.untagged
  evenTag := h.evenTag
  cur := h.cur
  prev := h.prev
  wait0 _ hw := absurd hw hc
  idle _ := hc
  between _ _ := ⟨hflush, hprev⟩

/-! ## START and WAIT_1 -/

/-- Fetch-phase-0, decode and commit keep the lasting part. -/
theorem lasting_staged (h : Lasting p s) : Lasting p (s.fetch0.decodeStage.commit p) where
  imWf := by simpa using h.imWf
  dmWf := commit_wf p _ h.dmWf
  queue := by simpa using h.queue
  fetchCtrl := by simp
  untagged := by simpa using h.untagged
  evenTag := by simpa using h.evenTag
  cur := by
    rw [commit_cur]
    exact ⟨rfl, h.evenTag, h.untagged⟩
  prev := decoded_ok_of_eq h.prev (by simp) (by simp) (by simp)

theorem inv_wait1 (h : Lasting p s) (hr : s.running = true) (hflush : s.flushPending = false) : Inv p (s.wait1 p) := by
  have staged := lasting_staged h
  have running : (s.fetch0.decodeStage.commit p).running = true := by simpa using hr
  rcases hf : (s.fetch0.decodeStage.commit p).faulted with _ | r
  · rw [wait1_next p s hf]
    exact inv_enter_wait0 staged running (by simp) (commit_pending p _ hf) (by simp [hflush])
  · rw [wait1_faulted p s r hf]
    exact inv_of_faulted staged hf running

theorem lasting_startStage (h : Lasting p s) : Lasting p (s.startStage p) where
  imWf := h.imWf
  dmWf := h.dmWf
  queue := h.queue
  fetchCtrl := h.fetchCtrl
  untagged _ := rfl
  evenTag _ ha := nomatch ha
  cur := h.cur
  prev := h.prev

/-! ## WAIT_0 -/

/-- A compute phase keeps the lasting part. -/
theorem lasting_effect {i : Instr} {u : State} (h : Lasting p s) (hp : p.Admissible) (he : Effect p s i u) : Lasting p u := by
  have k := he.kept
  exact {
    imWf := k.im ▸ h.imWf
    dmWf := k.dm ▸ h.dmWf
    queue := he.length hp h.queue
    fetchCtrl := k.ictrl.trans h.fetchCtrl
    untagged := k.irTag ▸ k.ir ▸ h.untagged
    evenTag := k.irTag ▸ h.evenTag
    cur := decoded_ok_of_eq h.cur k.curInstr k.curOpcode k.curAddr
    prev := k.prev ▸ h.prev }

/-- The save of `cur` and an aligned fetch keep the lasting part. -/
theorem lasting_fetched (h : Lasting p s) (even : s.imar.getLsbD 0 = false) : Lasting p ((s.setPrev s.cur).fetch1 p) := by
  rw [fetch1_even p (s.setPrev s.cur) even]
  exact {
    imWf := h.imWf
    dmWf := h.dmWf
    queue := le_trans (by simp) h.queue
    fetchCtrl := h.fetchCtrl
    untagged := fun hn => by
      rw [State.deliver_irTag] at hn
      rw [State.deliver_ir, if_pos (by_contra fun hs => by rw [if_neg hs] at hn; cases hn)]
    evenTag := fun a ha => by
      rw [State.deliver_irTag] at ha
      split at ha
      · cases ha
      · exact Option.some.inj ha ▸ even
    cur := h.cur
    prev := h.cur }

theorem lasting_halted (h : Lasting p s) : Lasting p (s.haltCheck p) := by
  rw [haltCheck_frame]
  exact ⟨h.imWf, h.dmWf, h.queue, h.fetchCtrl, h.untagged, h.evenTag, h.cur, h.prev⟩

/-- The rest of a WAIT_0 cycle, after a compute phase whose pending access is the one its instruction asked for. -/
theorem inv_finishWait0 (h : Lasting p s) (hr : s.running = true)
    (hcur : s.cur.pending = true → accessCtrl s.cur.instr = some s.dctrl) : Inv p (s.finishWait0 p) := by
  rcases hf : s.faulted with _ | r
  · cases even : s.imar.getLsbD 0
    · rw [finishWait0_even p s hf even]
      have fetched := lasting_halted (lasting_fetched h even)
      have flush : ((s.setPrev s.cur).fetch1 p).flushPending = false := by
        rw [fetch1_even p (s.setPrev s.cur) even, State.deliver_flushPending]
      exact inv_between (s := (((s.setPrev s.cur).fetch1 p).haltCheck p).enter .wait1)
        ⟨fetched.imWf, fetched.dmWf, fetched.queue, fetched.fetchCtrl, fetched.untagged, fetched.evenTag, fetched.cur,
          fetched.prev⟩
        CycleState.noConfusion (by simpa using flush) (by simpa using hcur)
    · rw [finishWait0_odd p s hf even]
      exact inv_of_faulted (s := (s.setPrev s.cur).raise (.misalignedFetch s.imar))
        ⟨h.imWf, h.dmWf, h.queue, h.fetchCtrl, h.untagged, h.evenTag, h.cur, h.cur⟩ rfl hr
  · rw [finishWait0_faulted p s r hf]
    exact inv_of_faulted h hf hr

/-! ## The step -/

theorem stepWith_keeps_inv (hp : p.Admissible) {t : State} (h : Inv p s) (hs : s.stepWith p = .next t) : Inv p t := by
  have last := lasting_of_inv h
  have ticked : Lasting p s.tick :=
    ⟨h.imWf, h.dmWf, h.queue, h.fetchCtrl, h.untagged, h.evenTag, h.cur, h.prev⟩
  rcases stepWith_cases hs with ⟨rfl, -, -⟩ | ⟨⟨hr, hf⟩, hc, rfl⟩ | ⟨⟨hr, hf⟩, hc, rfl⟩ | ⟨⟨hr, hf⟩, hc, u, he, rfl⟩
  · exact h
  · exact inv_wait1 (lasting_startStage ticked) hr (h.between hf (by rw [hc]; exact CycleState.noConfusion)).1
  · exact inv_wait1 ticked hr (h.between hf (by rw [hc]; exact CycleState.noConfusion)).1
  · obtain ⟨hcur, -⟩ := h.wait0 hf hc
    have effect := execWith_effect he
    have k := effect.kept
    refine inv_finishWait0 (lasting_effect ticked hp effect) (k.running.trans hr) fun hpending => ?_
    rcases effect.pending hpending with before | asked
    · exact nomatch hcur.symm.trans before
    · exact k.curInstr ▸ asked

/-- Settles O56: a START or WAIT_1 cycle and the two parts of a WAIT_0 cycle each keep what the next one needs. -/
theorem stepKeepsInvariant : Obligations.StepKeepsInvariant :=
  ⟨fun _ _ h hs => stepWith_keeps_inv (by decide) h hs, fun _ _ _ hp h hs => stepWith_keeps_inv hp h hs⟩

end Sys2Proof.Proofs

/-! PROOFS. Reset, the host's operations, the boot sequence and the bubble queue
(spec/10_state.md section 10; spec/70_reset_and_hazards.md sections 3, 5 and 6). -/

namespace Sys2Proof.Proofs

open Sys2Proof Sys2Proof.Machine Sys2Proof.Claims

/-! ## Reset -/

theorem inv_reset (p : Config.Params) : Inv p (State.resetWith p) :=
  have nop : (Decoded.nopWith p).Ok p := ⟨rfl, fun _ h => (nomatch h), fun _ => rfl⟩
  inv_between ⟨wf_nil, wf_nil, Nat.zero_le _, rfl, fun _ => rfl, fun _ h => (nomatch h), nop, nop⟩ CycleState.noConfusion rfl
    fun h => (nomatch h)

/-- Settles O55: after reset the machine is between slots, with nothing pending. -/
theorem resetInvariant : Obligations.ResetInvariant := ⟨inv_reset, inv_reset Config.params⟩

/-- Settles O58: every field read off the reset state, a register by its number. -/
theorem resetValues : Obligations.ResetValues := by
  refine ⟨?_, fun _ => ⟨rfl, rfl⟩, rfl, rfl, rfl, rfl, rfl, rfl, rfl, rfl, rfl, rfl, rfl, rfl, rfl, ?_, rfl⟩
  · decide
  · decide

/-! ## Host operations -/

/-- A host operation acts on a machine that is not running (R200). -/
theorem hostStep_eq_some {op : HostOp} {s t : State} (h : hostStep op s = some t) : s.running = false ∧ t = s.hostEffect op := by
  unfold hostStep at h
  split at h
  · cases h
  · exact ⟨Bool.eq_false_iff.2 ‹_›, (Option.some.inj h).symm⟩

/-- Settles O57: a memory operation keeps the canonical form, `run` and `restart` enter START between slots. -/
theorem hostKeepsInvariant : Obligations.HostKeepsInvariant := by
  intro p op s t h hs
  obtain ⟨idle, rfl⟩ := hostStep_eq_some hs
  have hc := h.idle idle
  cases op
  case load imBytes dmBytes start =>
    exact { h with imWf := wf_writeBytes h.imWf imBytes, dmWf := wf_writeBytes h.dmWf dmBytes }
  case run =>
    change Inv p s.enterRun
    unfold State.enterRun
    split
    · exact h
    · exact { h with wait0 := fun _ hw => (nomatch hw), idle := fun hn => (nomatch hn), between := fun hf _ => h.between hf hc }
  case restart =>
    exact { h with
      wait0 := fun _ hw => (nomatch hw)
      idle := fun _ => CycleState.noConfusion
      between := fun hf _ => h.between hf hc }
  case setBreakpoint | clearBreakpoint | patchReg | patchFlags => exact { h with }
  case patchIm a v => exact { h with imWf := wf_write h.imWf a.isLt v }
  case patchDm a v => exact { h with dmWf := wf_write h.dmWf a.isLt v }

/-- Settles O59: the check on `running`, then the effect of each operation. -/
theorem runAndRestart : Obligations.RunAndRestart := by
  intro s
  refine ⟨fun hr op => if_pos hr, fun hr hf => ⟨?run, _, if_neg (by simp [hr]), ?_, fun i hi => ?_, rfl⟩⟩
  case run => simp [hostStep, hr, State.hostEffect, State.enterRun, hf]
  · exact (reg_setReg ..).trans (if_pos rfl)
  · exact (reg_setReg ..).trans (if_neg hi)

/-! ## The bubble queue -/

/-- Removing as many entries as the queue holds answers them oldest first and leaves it empty (R188). -/
theorem popAll_setBq (s : State) (l : List Bool) : popAll l.length (s.setBq l) = (l, s.setBq []) := by
  induction l with
  | nil => rfl
  | cons b l ih =>
    have head : (s.setBq (b :: l)).bqRemove = (b, s.setBq l) := rfl
    rw [List.length_cons, popAll, head]
    simp [ih]

/-- Settles O54: inserts with room append, removals answer from the front. -/
theorem bubbleQueueFifo : Obligations.BubbleQueueFifo := by
  have fifo (p : Config.Params) (l : List Bool) (s : State) (empty : s.bq = []) (room : l.length ≤ p.bqCapacity) :
      popAll l.length (s.bqInsertAll p l) = (l, s) := by
    rw [bqInsertAll_room p l s (by rw [empty]; simpa using room), empty, List.nil_append, popAll_setBq, ← empty, State.setBq_self]
  refine ⟨fifo, fun s empty => ?_⟩
  have first : s.bqInsert Config.params true = s.setBq [true] := by
    rw [State.bqInsert, bqInsertAll_room _ _ _ (by rw [empty]; decide), empty, List.nil_append]
  rw [first, State.bqInsert, bqInsertAll_room _ _ _ (by simp [Config.params])]
  exact (popAll_setBq s [true, false]).trans (by rw [← empty, State.setBq_self])

end Sys2Proof.Proofs

/-! PROOFS. START and WAIT_1 cycles (spec/70_reset_and_hazards.md sections 1 and 2; spec/45_load_store.md section 1). -/

namespace Sys2Proof.Proofs

open Sys2Proof Sys2Proof.Machine Sys2Proof.Claims

/-! ## What a START or WAIT_1 cycle has done before its commit -/

/-- The state as fetch-phase-0 and decode leave it: the clock, the no-op START presets, R7 latched and advanced, IR decoded. -/
def staged (p : Config.Params) (s : State) : State :=
  State.decodeStage <| State.fetch0 { s.tick with
    ir := if s.cycleState = .start then p.nopWord else s.ir
    irTag := if s.cycleState = .start then none else s.irTag
    cycleState := .wait1 }

section Staged
variable {p : Config.Params} {s : State}

/-- A cycle whose commit does not fault goes on to WAIT_0 (R180). -/
theorem stepWith_committed (hl : s.Live) (hc : s.cycleState ≠ .wait0) (hf : ((staged p s).commit p).faulted = none) :
    s.stepWith p = .next (((staged p s).commit p).enter .wait0) := by
  obtain ⟨u, hs, rfl⟩ := stepWith_wait1 p s hl hc
  rw [hs]
  exact congrArg _ (wait1_next p _ hf)

/-- A cycle whose commit faults ends there (60 R166). -/
theorem stepWith_commit_faulted (hl : s.Live) (hc : s.cycleState ≠ .wait0) {r : Fault}
    (hf : ((staged p s).commit p).faulted = some r) : s.stepWith p = .next ((staged p s).commit p) := by
  obtain ⟨u, hs, rfl⟩ := stepWith_wait1 p s hl hc
  rw [hs]
  exact congrArg _ (wait1_faulted p _ r hf)

theorem staged_reg (i : RegIdx) : (staged p s).reg i = atCommit s i := fetch0_reg _ i

/-- Whatever the commit does, the cycle answers a state that has what the commit leaves in every field but the cycle state. -/
theorem stepWith_staged (hl : s.Live) (hc : s.cycleState ≠ .wait0) :
    ∃ c, s.stepWith p = .next (((staged p s).commit p).enter c) := by
  rcases hf : ((staged p s).commit p).faulted with _ | r
  · exact ⟨_, stepWith_committed hl hc hf⟩
  · exact ⟨_, stepWith_commit_faulted hl hc hf⟩

/-- A cycle with nothing pending (R180). -/
theorem stepWith_decodes (hl : s.Live) (hc : s.cycleState ≠ .wait0) (hp : s.prev.pending = false) :
    s.stepWith p = .next ((staged p s).enter .wait0) := by
  have idle : (staged p s).commit p = staged p s := commit_idle p _ hp
  rw [stepWith_committed hl hc (by rw [idle]; exact hl.2), idle]

end Staged

/-- Settles O43: nothing is pending, so the cycle is fetch-phase-0 and decode, field by field. -/
theorem decodeCycle : Obligations.DecodeCycle := fun _ hl hp hc =>
  ⟨_, stepWith_decodes hl hc hp, staged_reg 7, fun i hi => (staged_reg i).trans (if_neg hi), rfl⟩

/-- Settles O42: fetch-phase-0 by its definition; in a cycle the commit leaves IMAR, and R7 too when nothing is pending. -/
theorem fetchAddressLatched : Obligations.FetchAddressLatched := by
  refine ⟨fun s => ⟨rfl, rfl, ?_, fun i hi => (fetch0_reg s i).trans (if_neg hi), rfl⟩, ?_⟩
  · exact (congrArg BitVec.toNat ((fetch0_reg s 7).trans (if_pos rfl))).trans (BitVec.toNat_add _ _)
  · rintro s ⟨hl, hc⟩
    obtain ⟨c, hs⟩ := stepWith_staged (p := Config.params) hl hc
    refine ⟨_, hs, commit_imar .., commit_ictrl .., fun hp => ?_⟩
    rw [commit_idle _ (staged Config.params s) hp]
    exact staged_reg 7

/-! ## The commit of a pending access -/

section Commit
variable {p : Config.Params} {s : State}

/-- A cycle that does a pending access: the transfer on the staged state, and `prev` no longer pending (R140). -/
theorem stepWith_transfers (hl : s.Live) (hc : s.cycleState ≠ .wait0) (hp : s.prev.pending = true)
    (ha : s.dctrl.isWord = false ∨ s.dmar.getLsbD 0 = false) :
    s.stepWith p = .next (((staged p s).transfer.setPrev { s.prev with pending := false }).enter .wait0) := by
  have done : (staged p s).commit p = (staged p s).transfer.setPrev { s.prev with pending := false } :=
    commit_done p (staged p s) hp ha
  have live : (staged p s).transfer.faulted = none := by
    rw [transfer_frame]
    exact hl.2
  rw [stepWith_committed hl hc (by rw [done]; exact live), done]

end Commit

theorem lo8_readByte (m : Memory) (a : Word) : lo8 (Memory.readByte m a) = Memory.read m a.toNat :=
  BitVec.extractLsb'_append_eq_right

/-- A register a byte was loaded into (R19). -/
theorem merge_readByte_toNat (old : Word) (m : Memory) (a : Word) :
    (merge .byte old (Memory.readByte m a)).toNat = old.toNat / 256 * 256 + (Memory.read m a.toNat).toNat := by
  rw [merge_toNat, ← lo8_readByte m a, lo8_toNat]
  rfl

/-- Settles O28: the transfer of a load on the staged state, whose registers are those of `atCommit`. -/
theorem commitLoads : Obligations.CommitLoads := by
  rintro s d ⟨hl, hc⟩ hp rfl
  refine ⟨fun hword even => ?word, fun hbyte => ?byte⟩
  case word =>
    refine ⟨_, stepWith_transfers hl hc hp (.inr even), ?_⟩
    rw [transfer_readWord (s := staged Config.params s) hword]
    have loaded {t : State} (v : Word) : (t.setReg s.prev.instr.fields.dst v).reg s.prev.instr.fields.dst = v :=
      (reg_setReg ..).trans (if_pos rfl)
    exact ⟨(congrArg BitVec.toNat (loaded _)).trans (readWord_toNat_of_even s.dm s.dmar even),
      fun i hi => (reg_setReg ..).trans ((if_neg hi).trans (staged_reg i)), (loaded _).symm, rfl, rfl, fun _ => ⟨rfl, rfl⟩, rfl, rfl⟩
  case byte =>
    refine ⟨_, stepWith_transfers hl hc hp (.inl (by rw [hbyte]; rfl)), ?_⟩
    rw [transfer_readByte (s := staged Config.params s) hbyte]
    refine ⟨(congrArg BitVec.toNat ((writeW_reg ..).trans (if_pos rfl))).trans ?_,
      fun i hi => (writeW_reg ..).trans ((if_neg hi).trans (staged_reg i)), rfl, rfl, fun _ => ⟨rfl, rfl⟩, rfl, rfl⟩
    exact (merge_readByte_toNat ..).trans (by rw [← staged_reg (p := Config.params)]; rfl)

/-- The bytes of memory, as numbers, after a word is written at an even address (R45). -/
theorem stored_word_toNat (m : Memory) {d v : Word} (a : Nat) (even : d.getLsbD 0 = false) :
    (Memory.read (Memory.writeWord m d v) a).toNat = if a = d.toNat then v.toNat % 256
      else if a = d.toNat + 1 then v.toNat / 256 else (Memory.read m a).toNat := by
  rw [read_writeWord_of_even m d v a even, apply_ite BitVec.toNat, apply_ite BitVec.toNat, hi8_toNat, lo8_toNat]
  split <;> split <;> omega

/-- The bytes of memory, as numbers, after a byte is written (R48). -/
theorem stored_byte_toNat (m : Memory) (d v : Word) (a : Nat) :
    (Memory.read (Memory.writeByte m d v) a).toNat = if a = d.toNat then v.toNat % 256 else (Memory.read m a).toNat := by
  rw [read_writeByte, apply_ite BitVec.toNat, lo8_toNat]

/-- Settles O32: the two bytes of the word are read back after the byte store, at the even address or at its successor. -/
theorem mixedWidthAccess : Obligations.MixedWidthAccess := by
  intro m a v even
  have next := succ_toNat_of_even a even
  have low := (Memory.read m a.toNat).isLt
  constructor
  · rw [readWord_toNat_of_even _ a even, readWord_toNat_of_even m a even, stored_byte_toNat, stored_byte_toNat, if_pos rfl,
      if_neg (Nat.succ_ne_self _)]
    omega
  · rw [readWord_toNat_of_even _ a even, readWord_toNat_of_even m a even, stored_byte_toNat, stored_byte_toNat, next, if_pos rfl,
      if_neg (Nat.succ_ne_self _).symm]
    omega

/-- Settles O29: the transfer of a store on the staged state, its bytes read back. -/
theorem commitStores : Obligations.CommitStores := by
  rintro s v ⟨hl, hc⟩ hp rfl
  refine ⟨fun hword even => ?word, fun hbyte => ?byte⟩
  case word =>
    refine ⟨_, stepWith_transfers hl hc hp (.inr even), ?_⟩
    rw [transfer_writeWord (s := staged Config.params s) hword]
    refine ⟨fun a => ?_, fun _ => rfl, staged_reg, staged_reg _, rfl, rfl, rfl, rfl⟩
    rw [← staged_reg (p := Config.params)]
    exact stored_word_toNat s.dm a even
  case byte =>
    refine ⟨_, stepWith_transfers hl hc hp (.inl (by rw [hbyte]; rfl)), ?_⟩
    rw [transfer_writeByte (s := staged Config.params s) hbyte]
    refine ⟨fun a => ?_, fun _ => rfl, staged_reg, staged_reg _, rfl, rfl, rfl, rfl⟩
    rw [← staged_reg (p := Config.params)]
    exact stored_byte_toNat s.dm s.dmar _ a

/-- Settles O30: the commit of a misaligned word access raises the fault on the staged state, which nothing else changes. -/
theorem misalignedDataFaults : Obligations.MisalignedDataFaults := by
  rintro s ⟨hl, hc⟩ hp hword odd
  have isWord : s.dctrl.isWord = true := by rcases hword with h | h <;> rw [h] <;> rfl
  have faults : (staged Config.params s).commit Config.params = (staged Config.params s).raise (.misalignedData s.dmar) :=
    commit_misaligned _ (staged Config.params s) hp isWord odd
  refine ⟨_, stepWith_commit_faulted hl hc (congrArg State.faulted faults), ?_⟩
  rw [faults]
  exact ⟨rfl, fun _ => ⟨rfl, rfl⟩, staged_reg, rfl, rfl, rfl⟩

end Sys2Proof.Proofs

/-! PROOFS. WAIT_0 cycles: the compute phase, then the save, the fetch and the halt check
(spec/70_reset_and_hazards.md sections 1 to 4). -/

namespace Sys2Proof.Proofs

open Sys2Proof Sys2Proof.Machine Sys2Proof.Claims

/-! ## What follows the compute phase -/

/-- The state an aligned fetch leaves after a compute phase answered v, before the halt check (R181, R185). -/
def fetched (p : Config.Params) (v : State) : State := { v with
  imbr := Memory.readWord v.im v.imar
  ir := if v.flushPending || v.bq.head? == some true then p.nopWord else Memory.readWord v.im v.imar
  irTag := if v.flushPending || v.bq.head? == some true then none else some v.imar
  bq := v.bq.tail
  flushPending := false
  prev := v.cur
  cycleState := .wait1
  zeroFetchedThisCycle := decide (Memory.readWord v.im v.imar = 0) }

section Rest
variable {p : Config.Params} {s v : State}

theorem enter_haltCheck (t : State) (c : CycleState) : (t.haltCheck p).enter c = (t.enter c).haltCheck p := by
  unfold State.haltCheck
  change _ = if t.breakpointHit then _ else if p.failurePolicy = .halt ∧ t.failedThisCycle = true then _
    else if p.haltOnZeroFetch && t.zeroFetchedThisCycle then _ else _
  split
  · rfl
  · split
    · rfl
    · split <;> rfl

theorem finishWait0_fetched (hv : v.faulted = none) (even : v.imar.getLsbD 0 = false) :
    v.finishWait0 p = (fetched p v).haltCheck p := by
  rw [finishWait0_even p v hv even, enter_haltCheck, fetch1_even p (v.setPrev v.cur) even, suppresses_eq]
  rfl

/-- Everything the rest of a WAIT_0 cycle can do (R181; 60 R166). -/
theorem finishWait0_cases (p : Config.Params) (v : State) : v.finishWait0 p = v ∨
    v.finishWait0 p = (v.setPrev v.cur).raise (.misalignedFetch v.imar) ∨ v.finishWait0 p = (fetched p v).haltCheck p := by
  rcases hf : v.faulted with _ | r
  · cases even : v.imar.getLsbD 0
    · exact .inr (.inr (finishWait0_fetched hf even))
    · exact .inr (.inl (finishWait0_odd p v hf even))
  · exact .inl (finishWait0_faulted p v r hf)

/-- A WAIT_0 cycle with an aligned fetch. -/
theorem stepWith_fetched (hl : s.Live) (hc : s.cycleState = .wait0) (even : s.imar.getLsbD 0 = false)
    (he : execWith p s.cur.instr s.tick = .next v) (hv : v.faulted = none) :
    s.stepWith p = .next ((fetched p v).haltCheck p) := by
  rw [stepWith_wait0 hl hc he, finishWait0_fetched hv]
  rw [(execWith_effect he).kept.imar]
  exact even

/-- With no breakpoint the machine the spec decides runs on. -/
theorem step_fetched (h : ReadyWait0 s) (he : exec s.cur.instr s.tick = .next v) (hv : v.faulted = none) :
    step s = .next (fetched Config.params v) := by
  obtain ⟨hl, hc, hb, even⟩ := h
  have hk := (exec_effect he).kept
  have nohit : (fetched Config.params v).breakpointHit = false := breakpointHit_none _ (hk.breakpoint.trans hb)
  exact (stepWith_fetched hl hc even ((execWith_params ..).trans he) hv).trans (congrArg _ (haltCheck_runs _ nohit))

theorem fetched_word {i : Instr} (he : execWith p i s.tick = .next v) (even : s.imar.getLsbD 0 = false) :
    Memory.readWord v.im v.imar = wordOfBytes (Memory.read s.im s.imar.toNat) (Memory.read s.im (s.imar.toNat + 1)) := by
  have hk := (execWith_effect he).kept
  rw [hk.im, hk.imar, Memory.readWord]
  exact congrArg (fun a => wordOfBytes (Memory.read s.im s.imar.toNat) (Memory.read s.im a)) (succ_toNat_of_even s.imar even)

end Rest

/-- Settles O40: a live machine's WAIT_0 cycle, where `exec` is `execWith` but for CEX. -/
theorem stepRunsCurrentInstruction : Obligations.StepRunsCurrentInstruction := by
  refine ⟨fun s hl hc => ?_, fun p s hl hc => ?_, execWith_of_not_cex, fun s => rfl⟩
  · rw [step_live s hl, cycle_wait0 s _ hc, State.wait0, execWith_params]
    rfl
  · rw [stepWith_live p s hl, cycle_wait0 s _ hc]
    rfl

/-- Settles O44: `fetched` is the state of the statement; the halt check changes R7 and `running` alone. -/
theorem fetchConsumesOneDecision : Obligations.FetchConsumesOneDecision := by
  intro p s v hl hc even he hv
  have himar : v.imar = s.imar := (execWith_effect he).kept.imar
  rw [← fetched_word he even, ← himar]
  refine ⟨⟨_, stepWith_fetched hl hc even he hv, fun i hi => haltCheck_reg p (fetched p v) i hi, haltCheck_frame p (fetched p v)⟩, ?_⟩
  rintro hb rfl
  rw [execWith_params] at he
  exact step_fetched ⟨hl, hc, hb, even⟩ he hv

/-- Settles O45: after the compute phase only `prev` and the fault change. -/
theorem misalignedFetchFaults : Obligations.MisalignedFetchFaults := by
  intro s u hl hc odd he hu
  have hk := (exec_effect he).kept
  have himar : u.imar = s.imar := hk.imar
  refine ⟨_, step_wait0 hl hc he, ?_⟩
  rw [finishWait0_odd _ u hu (himar ▸ odd), himar]
  exact ⟨rfl, fun _ => rfl, rfl, rfl, rfl, fun _ => ⟨rfl, rfl⟩, hk.ir, rfl⟩

/-- Settles O46: the tag of the saved instruction matches, so the halt check takes its first case. -/
theorem breakpointHalts : Obligations.BreakpointHalts := by
  intro p s u a b hl hc even hb ha hab he hu
  have hk := (execWith_effect he).kept
  have hit : (fetched p u).breakpointHit = true := by
    have hbu : u.breakpoint = some b := hk.breakpoint.trans hb
    have hau : u.cur.addr = some a := hk.curAddr.trans ha
    simp [State.breakpointHit, fetched, hbu, hau, hab]
  have hs := stepWith_fetched hl hc even he hu
  rw [haltCheck_hit p _ hit] at hs
  have live : ((fetched p u).setReg pcIdx ((fetched p u).reg pcIdx - p.breakpointRollback)).stop.faulted = none := hu
  refine ⟨_, hs, rfl, ?_, fun i hi => ?_, rfl, rfl, ?_, ?_⟩
  · exact (reg_setReg ..).trans (if_pos rfl)
  · exact (reg_setReg ..).trans (if_neg hi)
  · exact stepWith_idle p _ rfl hu
  · rintro rfl
    exact ⟨hs, (reg_setReg ..).trans (if_pos rfl), step_idle _ rfl hu⟩

section HaltCheck
variable {p : Config.Params} {t : State}

theorem haltCheck_failure (nohit : t.breakpointHit = false) (h : p.failurePolicy = .halt ∧ t.failedThisCycle = true) :
    t.haltCheck p = (t.setReg pcIdx (t.reg pcIdx - 2)).stop := by
  rw [State.haltCheck, if_neg (by rw [nohit]; exact Bool.false_ne_true), if_pos h]
  rfl

theorem haltCheck_zero (nohit : t.breakpointHit = false) (hn : ¬ (p.failurePolicy = .halt ∧ t.failedThisCycle = true))
    (hz : p.haltOnZeroFetch = true ∧ t.zeroFetchedThisCycle = true) : t.haltCheck p = t.stop := by
  rw [State.haltCheck, if_neg (by rw [nohit]; exact Bool.false_ne_true), if_neg hn, if_pos (Bool.and_eq_true_iff.2 hz)]

theorem haltCheck_none (nohit : t.breakpointHit = false) (hn : ¬ (p.failurePolicy = .halt ∧ t.failedThisCycle = true))
    (hz : ¬ (p.haltOnZeroFetch = true ∧ t.zeroFetchedThisCycle = true)) : t.haltCheck p = t := by
  rw [State.haltCheck, if_neg (by rw [nohit]; exact Bool.false_ne_true), if_neg hn, if_neg (by rwa [Bool.and_eq_true_iff])]

end HaltCheck

/-- Settles O47: the three cases of the halt check with no breakpoint match, in its order. -/
theorem alternativeHalts : Obligations.AlternativeHalts := by
  rintro p s u ⟨hl, hc, hb, even⟩ he hu
  have hk := (execWith_effect he).kept
  have nohit : (fetched p u).breakpointHit = false := breakpointHit_none _ (hk.breakpoint.trans hb)
  have running : (fetched p u).running = true := hk.running.trans hl.1
  have zero : (fetched p u).zeroFetchedThisCycle = true ↔ Memory.readWord s.im s.imar = 0x0000#16 := by
    rw [← show u.im = s.im from hk.im, ← show u.imar = s.imar from hk.imar]
    exact decide_eq_true_iff
  rw [← zero]
  refine ⟨_, stepWith_fetched hl hc even he hu, fun i hi => haltCheck_reg p (fetched p u) i hi, fun hfail => ?failure,
    fun hn hz => ?zero, fun hn hz => ?neither⟩
  case failure =>
    rw [haltCheck_failure nohit hfail]
    exact ⟨rfl, (reg_setReg ..).trans (if_pos rfl)⟩
  case zero =>
    rw [haltCheck_zero nohit hn hz]
    exact ⟨rfl, rfl⟩
  case neither =>
    rw [haltCheck_none nohit hn hz]
    exact ⟨running, rfl⟩

end Sys2Proof.Proofs

/-! PROOFS. What holds over every step, and from one slot to the next (spec/60_exceptions.md;
spec/70_reset_and_hazards.md sections 1, 2 and 7; spec/20_memory.md section 6). -/

namespace Sys2Proof.Proofs

open Sys2Proof Sys2Proof.Machine Sys2Proof.Claims

/-! ## Every step -/

/-- Everything a step can do (R178): nothing, a START or WAIT_1 cycle, or a WAIT_0 cycle. -/
theorem step_shapes {s t : State} (h : step s = .next t) :
    (t = s ∧ s.running = false ∧ s.faulted = none) ∨
    (s.Live ∧ s.cycleState ≠ .wait0 ∧ ∃ c, t = ((staged Config.params s).commit Config.params).enter c) ∨
    (s.Live ∧ s.cycleState = .wait0 ∧ ∃ u, exec s.cur.instr s.tick = .next u ∧ t = u.finishWait0 Config.params) := by
  have commits (hl : s.Live) (hc : s.cycleState ≠ .wait0) :
      ∃ c, t = ((staged Config.params s).commit Config.params).enter c := by
    obtain ⟨c, hs⟩ := stepWith_staged (p := Config.params) hl hc
    exact ⟨c, Host.Outcome.next.inj (h.symm.trans hs)⟩
  rcases step_cases h with same | ⟨hl, hc, -⟩ | ⟨hl, hc, -⟩ | wait0
  · exact .inl same
  · have hc : s.cycleState ≠ .wait0 := by rw [hc]; exact CycleState.noConfusion
    exact .inr (.inl ⟨hl, hc, commits hl hc⟩)
  · have hc : s.cycleState ≠ .wait0 := by rw [hc]; exact CycleState.noConfusion
    exact .inr (.inl ⟨hl, hc, commits hl hc⟩)
  · exact .inr (.inr wait0)

/-- The rest of a WAIT_0 cycle changes R7, the fetch's registers, the queue, `prev`, the fault and the two states of the cycle,
nothing else (R181). -/
theorem finishWait0_frame (p : Config.Params) (v : State) : v.finishWait0 p = { v with
    x := (v.finishWait0 p).x, imbr := (v.finishWait0 p).imbr, ir := (v.finishWait0 p).ir, irTag := (v.finishWait0 p).irTag
    cycleState := (v.finishWait0 p).cycleState, running := (v.finishWait0 p).running, faulted := (v.finishWait0 p).faulted
    zeroFetchedThisCycle := (v.finishWait0 p).zeroFetchedThisCycle, bq := (v.finishWait0 p).bq
    flushPending := (v.finishWait0 p).flushPending, prev := (v.finishWait0 p).prev } := by
  rcases finishWait0_cases p v with h | h | h <;> rw [h]
  · rfl
  · rw [haltCheck_frame]
    rfl

theorem finishWait0_clock (p : Config.Params) (v : State) : (v.finishWait0 p).clockCycles = v.clockCycles :=
  (congrArg State.clockCycles (finishWait0_frame p v) :)

theorem finishWait0_failures (p : Config.Params) (v : State) : (v.finishWait0 p).failures = v.failures :=
  (congrArg State.failures (finishWait0_frame p v) :)

theorem finishWait0_im (p : Config.Params) (v : State) : (v.finishWait0 p).im = v.im :=
  (congrArg State.im (finishWait0_frame p v) :)

theorem finishWait0_dm (p : Config.Params) (v : State) : (v.finishWait0 p).dm = v.dm :=
  (congrArg State.dm (finishWait0_frame p v) :)

theorem finishWait0_breakpoint (p : Config.Params) (v : State) : (v.finishWait0 p).breakpoint = v.breakpoint :=
  (congrArg State.breakpoint (finishWait0_frame p v) :)

theorem finishWait0_startingAddress (p : Config.Params) (v : State) : (v.finishWait0 p).startingAddress = v.startingAddress :=
  (congrArg State.startingAddress (finishWait0_frame p v) :)

/-- Settles O51: both kinds of cycle keep the clock the tick advanced. -/
theorem clockCountsCycles : Obligations.ClockCountsCycles := by
  refine fun s => ⟨fun hl => ?_, fun hf hr => step_idle s hr hf, fun r hf => ⟨step_faulted s r hf, ?_, rfl⟩⟩
  · obtain ⟨t, ht⟩ := step_next_of_live hl
    refine ⟨t, ht, ?_⟩
    rcases step_shapes ht with ⟨-, hr, -⟩ | ⟨-, -, c, rfl⟩ | ⟨-, -, u, he, rfl⟩
    · exact nomatch hr.symm.trans hl.1
    · exact commit_clockCycles Config.params (staged Config.params s)
    · exact (finishWait0_clock ..).trans (exec_effect he).kept.clockCycles
  · simp only [State.hostEffect, State.enterRun, hf]

/-- Settles O52: only a compute phase records, at most once, at the clock of its cycle. -/
theorem failuresAppendOnly : Obligations.FailuresAppendOnly := by
  intro s t h
  rcases step_shapes h with ⟨rfl, -, -⟩ | ⟨-, -, c, rfl⟩ | ⟨-, hc, u, he, rfl⟩
  · exact .inl rfl
  · exact .inl (commit_failures Config.params (staged Config.params s))
  · rw [finishWait0_failures]
    rcases (exec_effect he).failures with same | ⟨r, rfl⟩
    · exact .inl same
    · exact .inr ⟨r, hc, rfl⟩

/-- A byte the commit changes is one of those a pending store was given (R140). -/
theorem commit_read_ne {p : Config.Params} {s : State} {a : Nat} (h : Memory.read (s.commit p).dm a ≠ Memory.read s.dm a) :
    s.prev.pending = true ∧
      (s.dctrl = .writeWord ∧ (a = s.dmar.toNat ∨ a = s.dmar.toNat + 1) ∨ s.dctrl = .writeByte ∧ a = s.dmar.toNat) := by
  cases hp : s.prev.pending
  · rw [commit_idle p s hp] at h
    exact absurd rfl h
  refine ⟨rfl, ?_⟩
  by_cases hm : s.dctrl.isWord = true ∧ s.dmar.getLsbD 0 = true
  · rw [commit_misaligned p s hp hm.1 hm.2] at h
    exact absurd rfl h
  have ha : s.dctrl.isWord = false ∨ s.dmar.getLsbD 0 = false := by
    rcases not_and_or.1 hm with hm | hm
    · exact .inl (Bool.eq_false_iff.2 hm)
    · exact .inr (Bool.eq_false_iff.2 hm)
  rw [commit_done p s hp ha] at h
  cases hd : s.dctrl
  case readWord =>
    rw [transfer_readWord hd] at h
    exact absurd rfl h
  case readByte =>
    rw [transfer_readByte hd] at h
    exact absurd rfl h
  case writeWord =>
    have even : s.dmar.getLsbD 0 = false := ha.resolve_left (by rw [hd]; exact Bool.noConfusion)
    rw [transfer_writeWord hd] at h
    refine .inl ⟨rfl, ?_⟩
    by_contra hne
    obtain ⟨hlow, hhigh⟩ := not_or.1 hne
    exact h ((read_writeWord_of_even s.dm s.dmar _ a even).trans (by rw [if_neg hhigh, if_neg hlow]))
  case writeByte =>
    rw [transfer_writeByte hd] at h
    refine .inr ⟨rfl, ?_⟩
    by_contra hne
    exact h ((read_writeByte s.dm s.dmar _ a).trans (if_neg hne))

/-- Settles O50: a WAIT_0 cycle keeps both memories, and of another cycle's stages only the commit changes one. -/
theorem onlyStoresChangeMemory : Obligations.OnlyStoresChangeMemory := by
  intro s t h
  rcases step_shapes h with ⟨rfl, -, -⟩ | ⟨hl, hc, c, rfl⟩ | ⟨-, hc, u, he, rfl⟩
  · exact ⟨rfl, rfl, rfl, fun a ha => absurd rfl ha⟩
  · exact ⟨commit_im .., commit_breakpoint .., commit_startingAddress .., fun a ha =>
      ⟨hl, hc, commit_read_ne (s := staged Config.params s) ha⟩⟩
  · have hk := (exec_effect he).kept
    refine ⟨(finishWait0_im ..).trans hk.im, (finishWait0_breakpoint ..).trans hk.breakpoint,
      (finishWait0_startingAddress ..).trans hk.startingAddress, fun a ha => absurd ?_ ha⟩
    rw [finishWait0_dm]
    exact congrArg (Memory.read · a) hk.dm

/-! ## From one slot to the next -/

/-- The cycle after an aligned fetch: the fetched word's decode, and the commit of what the compute phase requested. -/
theorem fetched_live {p : Config.Params} {v : State} (hr : v.running = true) (hf : v.faulted = none) :
    (fetched p v).Live ∧ (fetched p v).cycleState ≠ .wait0 := ⟨⟨hr, hf⟩, CycleState.noConfusion⟩

/-- Settles O41: the fetched word is in IR, the next cycle decodes it, and a WAIT_0 cycle computes what was decoded. -/
theorem fetchedWordIsExecuted : Obligations.FetchedWordIsExecuted := by
  rintro s v h he hv hflush hq
  have hk := (exec_effect he).kept
  obtain ⟨live, between⟩ := fetched_live (p := Config.params) (hk.running.trans h.1.1) hv
  have keeps : ¬ (v.flushPending || v.bq.head? == some true) = true := by
    rw [hflush, Bool.false_or, beq_iff_eq]
    exact hq
  have hir : (fetched Config.params v).ir = Memory.readWord v.im v.imar := if_neg keeps
  have htag : (fetched Config.params v).irTag = some s.imar := (if_neg keeps).trans (congrArg some hk.imar)
  have hcur : ((staged Config.params (fetched Config.params v)).commit Config.params).cur =
      { opcode := (fetched Config.params v).ir, instr := decodeWord (fetched Config.params v).ir, pending := false
        addr := some s.imar } := by
    rw [commit_cur, ← htag]
    rfl
  have word := hir.trans (fetched_word ((execWith_params ..).trans he) h.2.2.2)
  have idle (hp : v.cur.pending = false) : (staged Config.params (fetched Config.params v)).commit Config.params =
      staged Config.params (fetched Config.params v) := commit_idle _ _ hp
  rcases hf : ((staged Config.params (fetched Config.params v)).commit Config.params).faulted with _ | r
  · refine ⟨_, _, step_fetched h he hv, stepWith_committed live between hf, word, hcur, commit_imar .., fun hp => ⟨?_, hf⟩,
      fun _ => ?_⟩
    · rw [idle hp]
      exact staged_reg 7
    · have running := (commit_running Config.params (staged Config.params (fetched Config.params v))).trans live.1
      have runs := stepRunsCurrentInstruction.1
        (((staged Config.params (fetched Config.params v)).commit Config.params).enter .wait0) ⟨running, hf⟩ rfl
      rwa [State.enter_cur, hcur] at runs
  · refine ⟨_, _, step_fetched h he hv, stepWith_commit_faulted live between hf, word, hcur, commit_imar .., fun hp => ?_,
      fun hn => nomatch hf.symm.trans hn⟩
    rw [idle hp] at hf
    exact nomatch hf.symm.trans live.2

/-! ## Loads and stores, two cycles on -/

/-- The compute phase of an LD or ST that does not fault requests its access at the effective address (R138). -/
theorem indirectAccess_effective {dec inc : Bool} (h : (inc && dec) = false) (s : State) (prpo : Bool) (w : Width) (b : RegIdx)
    (c : MemCtrl) : ∃ x, s.indirectAccess prpo dec inc w b c = (s.setX x).requestAccess c (effective prpo dec inc w (s.reg b)) := by
  rw [indirectAccess_request h, indirectAddress_eq]
  exact ⟨_, rfl⟩

/-- The compute phase of a load that does not fault (R138, R143). -/
theorem exec_load {i : Instr} {s : State} {w : Width} {dst : RegIdx} {ea : Word} (h : LoadsFrom i s w dst ea) :
    ∃ x, exec i s.tick = .next ((s.tick.setX x).requestAccess (readCtrl w) ea) ∧ i.fields.dst = dst := by
  rcases h with ⟨prpo, dec, inc, base, rfl, both, rfl⟩ | ⟨o, base, rfl, rfl⟩
  · obtain ⟨x, hx⟩ := indirectAccess_effective both s.tick prpo w base (readCtrl w)
    exact ⟨x, congrArg _ hx, rfl⟩
  · exact ⟨s.x, rfl, rfl⟩

/-- The compute phase of a store that does not fault (R138, R144). -/
theorem exec_store {i : Instr} {s : State} {w : Width} {src : RegIdx} {ea : Word} (h : StoresAt i s w src ea) :
    ∃ x, exec i s.tick = .next ((s.tick.setX x).requestAccess (writeCtrl w) ea) ∧ i.fields.src = src := by
  rcases h with ⟨prpo, dec, inc, base, rfl, both, rfl⟩ | ⟨o, base, rfl, rfl⟩
  · obtain ⟨x, hx⟩ := indirectAccess_effective both s.tick prpo w base (writeCtrl w)
    exact ⟨x, congrArg _ hx, rfl⟩
  · exact ⟨s.x, rfl, rfl⟩

/-- Settles O33: the WAIT_0 cycle leaves `fetched`, and the next cycle's commit transfers from the effective address. -/
theorem loadReachesNextCompute : Obligations.LoadReachesNextCompute := by
  intro w dst ea s h hload aligned
  obtain ⟨x, he, rfl⟩ := exec_load hload
  obtain ⟨live, between⟩ := fetched_live (p := Config.params) (v := (s.tick.setX x).requestAccess (readCtrl w) ea) h.1.1 h.1.2
  have hs := step_fetched h he h.1.2
  cases w
  case word =>
    refine ⟨_, _, hs, stepWith_transfers live between rfl (.inr (aligned rfl)), rfl, ?_⟩
    rw [transfer_readWord rfl]
    refine ⟨h.1.2, ?_, fun _ => ⟨rfl, rfl⟩⟩
    exact (congrArg (low .word) ((reg_setReg ..).trans (if_pos rfl))).trans (Nat.mod_eq_of_lt (Memory.readWord s.dm ea).isLt)
  case byte =>
    refine ⟨_, _, hs, stepWith_transfers live between rfl (.inl rfl), rfl, ?_⟩
    rw [transfer_readByte rfl]
    refine ⟨h.1.2, ?_, fun _ => ⟨rfl, rfl⟩⟩
    refine (congrArg (low .byte) ((writeW_reg ..).trans (if_pos rfl))).trans ?_
    rw [low, merge_readByte_toNat, if_neg Width.noConfusion]
    exact (Nat.mul_add_mod_self_right ..).trans (Nat.mod_eq_of_lt (Memory.read s.dm ea.toNat).isLt)

/-- Settles O34: the WAIT_0 cycle leaves `fetched`, and the next cycle's commit transfers to the effective address. -/
theorem storeReachesMemory : Obligations.StoreReachesMemory := by
  intro w src ea s h hstore aligned
  obtain ⟨x, he, rfl⟩ := exec_store hstore
  obtain ⟨live, between⟩ := fetched_live (p := Config.params) (v := (s.tick.setX x).requestAccess (writeCtrl w) ea) h.1.1 h.1.2
  have hs := step_fetched h he h.1.2
  cases w
  case word =>
    refine ⟨_, _, hs, stepWith_transfers live between rfl (.inr (aligned rfl)), rfl, ?_⟩
    rw [transfer_writeWord rfl]
    refine ⟨h.1.2, fun a => ?_, fun _ => rfl⟩
    simp only [true_and]
    exact stored_word_toNat s.dm a (aligned rfl)
  case byte =>
    refine ⟨_, _, hs, stepWith_transfers live between rfl (.inl rfl), rfl, ?_⟩
    rw [transfer_writeByte rfl]
    refine ⟨h.1.2, fun a => ?_, fun _ => rfl⟩
    simp only [reduceCtorEq, false_and, if_false]
    exact stored_byte_toNat s.dm ea _ a

end Sys2Proof.Proofs

/-! PROOFS. XOR, AND, OR and the bit-index instructions (spec/42_logic_bit.md). -/

namespace Sys2Proof.Proofs

open Sys2Proof Sys2Proof.Machine Sys2Proof.Claims

/-! ## A result written back with Z and N -/

section LogicWrite
variable {s : State} {w : Width} {r : Word} (dst : RegIdx)

theorem logicWrite_reg (s : State) (w : Width) (r : Word) : (s.logicWrite w dst r).reg dst = merge w (s.reg dst) r :=
  (writeW_reg s w dst dst r).trans (if_pos rfl)

theorem low_logicWrite (hr : r.toNat < 2 ^ bits w) : low w ((s.logicWrite w dst r).reg dst) = r.toNat := by
  rw [logicWrite_reg, low_merge _ hr]

theorem logicWrite_signBit (s : State) (w : Width) (r : Word) :
    ((s.logicWrite w dst r).reg dst).getLsbD (bits w - 1) = signBit w r := by
  rw [logicWrite_reg, merge_getLsbD, if_pos (by cases w <;> decide), signBit]

theorem logicWrite_flags (hr : r.toNat < 2 ^ bits w) : (s.logicWrite w dst r).flags = { s.flags with
    z := decide (low w ((s.logicWrite w dst r).reg dst) = 0)
    n := ((s.logicWrite w dst r).reg dst).getLsbD (bits w - 1) } := by
  rw [logicWrite_signBit, low_logicWrite dst hr, ← beq_zero_eq]
  rfl

theorem otherRegs_logicWrite (s : State) (w : Width) (r : Word) : OtherRegs s (s.logicWrite w dst r) dst :=
  otherRegs_writeW s w dst r _

theorem onlyRegsAndFlags_logicWrite (s : State) (w : Width) (r : Word) : OnlyRegsAndFlags s (s.logicWrite w dst r) :=
  onlyRegsAndFlags_writeW s w dst r _

end LogicWrite

theorem aOperand_getLsbD (s : State) (w : Width) (dst : RegIdx) (k : Nat) :
    (s.aOperand w dst).getLsbD k = (decide (k < bits w) && (s.reg dst).getLsbD k) := trunc_getLsbD w _ k

theorem sOperand_getLsbD (s : State) (w : Width) (src : Operand) (k : Nat) :
    (s.sOperand w src).getLsbD k = (decide (k < bits w) && (s.operand src).getLsbD k) := trunc_getLsbD w _ k

theorem aOperand_lt (s : State) (w : Width) (dst : RegIdx) : (s.aOperand w dst).toNat < 2 ^ bits w := by
  rw [aOperand_toNat]
  exact low_lt w _

/-! ## XOR, AND, OR -/

theorem bitwiseInto_logicWrite {op : Bool → Bool → Bool} {s : State} {w : Width} {src : Operand} {dst : RegIdx} {r : Word}
    (hr : r.toNat < 2 ^ bits w)
    (hbits : ∀ k < bits w, r.getLsbD k = op ((s.aOperand w dst).getLsbD k) ((s.sOperand w src).getLsbD k)) :
    BitwiseInto op w src dst s (s.logicWrite w dst r) := by
  refine ⟨fun k hk => ?_, otherRegs_logicWrite dst s w r, logicWrite_flags dst hr, onlyRegsAndFlags_logicWrite dst s w r⟩
  rw [logicWrite_reg, merge_getLsbD]
  by_cases h : k < bits w
  · rw [if_pos h, if_pos h, hbits k h, aOperand_getLsbD, sOperand_getLsbD, decide_eq_true h, Bool.true_and, Bool.true_and]
  · rw [if_neg h, if_neg h, decide_eq_true hk, Bool.and_true]

/-- Settles O13: the words round-trip, and each result is the operation on every bit of the operands. -/
theorem xorAndOr : Obligations.XorAndOr := by
  refine ⟨registerForm fun w s d => decodeEncodeRoundTrip (.xor w s d) rfl,
    registerForm fun w s d => decodeEncodeRoundTrip (.and w s d) rfl,
    registerForm fun w s d => decodeEncodeRoundTrip (.or w s d) rfl,
    fun w src dst s => ⟨_, rfl, bitwiseInto_logicWrite ?_ fun k _ => BitVec.getLsbD_xor⟩,
    fun w src dst s => ⟨_, rfl, bitwiseInto_logicWrite ?_ fun k _ => BitVec.getLsbD_and⟩,
    fun w src dst s => ⟨_, rfl, bitwiseInto_logicWrite ?_ fun k _ => BitVec.getLsbD_or⟩⟩
  · rw [BitVec.toNat_xor]
    exact Nat.xor_lt_two_pow (aOperand_lt s w dst) (sOperand_lt s w src)
  · rw [BitVec.toNat_and]
    exact Nat.and_lt_two_pow _ (sOperand_lt s w src)
  · rw [BitVec.toNat_or]
    exact Nat.or_lt_two_pow (aOperand_lt s w dst) (sOperand_lt s w src)

/-! ## BIT, BIC, BIS -/

theorem twoPow_lt {w : Width} {k : Nat} (hk : k < bits w) : (BitVec.twoPow 16 k).toNat < 2 ^ bits w := by
  rw [BitVec.toNat_twoPow]
  exact (Nat.mod_le _ _).trans_lt (Nat.pow_lt_pow_right (by decide) hk)

theorem getLsbD_twoPow {w : Width} {k : Nat} (hk : k < bits w) (j : Nat) : (BitVec.twoPow 16 k).getLsbD j = decide (k = j) := by
  have : k < 16 := hk.trans_le (by cases w <;> decide)
  rw [BitVec.getLsbD_twoPow, decide_eq_true this, Bool.true_and]

theorem bitInto_logicWrite {b : Bool} {k : Nat} {s : State} {w : Width} {dst : RegIdx} {r : Word} (hk : k < bits w)
    (hr : r.toNat < 2 ^ bits w) (hbits : ∀ j < bits w, r.getLsbD j = if j = k then b else (s.aOperand w dst).getLsbD j) :
    BitInto b k w dst s (s.logicWrite w dst r) := by
  refine ⟨fun j hj => ?_, otherRegs_logicWrite dst s w r, logicWrite_flags dst hr, onlyRegsAndFlags_logicWrite dst s w r⟩
  rw [logicWrite_reg, merge_getLsbD]
  by_cases h : j < bits w
  · rw [if_pos h, hbits j h, aOperand_getLsbD, decide_eq_true h, Bool.true_and]
  · rw [if_neg h, if_neg (by omega), decide_eq_true hj, Bool.and_true]

section InRange
variable {w : Width} {k : Nat} (hk : k < bits w)
include hk

/-- Z of BIT is the bit it tests, negated (R115). -/
theorem and_twoPow_beq_zero (a : Word) : (a &&& BitVec.twoPow 16 k == 0) = !a.getLsbD k := by
  have nonzero : BitVec.twoPow 16 k ≠ 0 := fun h => by
    have := congrArg (BitVec.getLsbD · k) h
    simp [getLsbD_twoPow hk] at this
  rw [BitVec.and_twoPow]
  cases a.getLsbD k
  · rfl
  · exact beq_false_of_ne nonzero

/-- BIT (R115). -/
theorem bitTest_flags (s : State) (dst : RegIdx) :
    s.flags.ofResult w (s.aOperand w dst &&& BitVec.twoPow 16 k) = { s.flags with
      z := !(s.reg dst).getLsbD k
      n := decide (k = bits w - 1) && (s.reg dst).getLsbD (bits w - 1) } := by
  have inside : bits w - 1 < bits w := by cases w <;> decide
  rw [Flags.ofResult, and_twoPow_beq_zero hk, signBit, BitVec.getLsbD_and, getLsbD_twoPow hk, aOperand_getLsbD, aOperand_getLsbD,
    decide_eq_true hk, decide_eq_true inside, Bool.true_and, Bool.true_and, Bool.and_comm]

/-- BIC (R116). -/
theorem bitInto_clear (s : State) (dst : RegIdx) :
    BitInto false k w dst s (s.logicWrite w dst (s.aOperand w dst &&& ~~~BitVec.twoPow 16 k)) := by
  refine bitInto_logicWrite hk ?_ fun j hj => ?_
  · rw [BitVec.toNat_and]
    exact Nat.and_le_left.trans_lt (aOperand_lt s w dst)
  · have : j < 16 := hj.trans_le (by cases w <;> decide)
    rw [BitVec.getLsbD_and, BitVec.getLsbD_not, getLsbD_twoPow hk, decide_eq_true this, Bool.true_and]
    by_cases h : j = k
    · rw [if_pos h, decide_eq_true h.symm, Bool.not_true, Bool.and_false]
    · rw [if_neg h, decide_eq_false (Ne.symm h), Bool.not_false, Bool.and_true]

/-- BIS (R117). -/
theorem bitInto_set (s : State) (dst : RegIdx) :
    BitInto true k w dst s (s.logicWrite w dst (s.aOperand w dst ||| BitVec.twoPow 16 k)) := by
  refine bitInto_logicWrite hk ?_ fun j _ => ?_
  · rw [BitVec.toNat_or]
    exact Nat.or_lt_two_pow (aOperand_lt s w dst) (twoPow_lt hk)
  · rw [BitVec.getLsbD_or, getLsbD_twoPow hk]
    by_cases h : j = k
    · rw [if_pos h, decide_eq_true h.symm, Bool.or_true]
    · rw [if_neg h, decide_eq_false (Ne.symm h), Bool.or_false]

theorem or_twoPow_beq_zero (a : Word) : (a ||| BitVec.twoPow 16 k == 0) = false := by
  refine beq_false_of_ne fun h => ?_
  have := congrArg (BitVec.getLsbD · k) h
  simp [getLsbD_twoPow hk] at this

end InRange

/-- Settles O14: the mask names one bit, which is tested, cleared and set. -/
theorem bitIndexInRange : Obligations.BitIndexInRange := by
  intro w src dst s hk
  have mask := bitMask_in_range hk
  exact ⟨⟨_, exec_bit_masked dst mask, fun _ => rfl, bitTest_flags hk s dst, onlyRegsAndFlags s s.x _⟩,
    ⟨_, exec_bic_masked dst mask, bitInto_clear hk s dst⟩,
    ⟨_, exec_bis_masked dst mask, bitInto_set hk s dst, or_twoPow_beq_zero hk (s.aOperand w dst)⟩⟩

/-- Settles O15: there is no mask, so each instruction fails. -/
theorem bitIndexOutOfRangeFails : Obligations.BitIndexOutOfRangeFails := fun _ _ dst _ hk =>
  have mask := bitMask_out_of_range hk
  ⟨exec_bit_fails dst mask, exec_bic_fails dst mask, exec_bis_fails dst mask⟩

end Sys2Proof.Proofs

/-! PROOFS. Moves, shifts, status and the instructions that only fail (spec/43_move_shift.md; spec/44_status_cex.md). -/

namespace Sys2Proof.Proofs

open Sys2Proof Sys2Proof.Machine Sys2Proof.Claims

/-! ## SRA and RRC -/

/-- A word of the shifts: the code in the source field, bit 6 the width where it is read (R71). -/
theorem shift_word (wb : Bool) (code dst : RegIdx) : 0b010011010#9 ++ BitVec.ofBool wb ++ code ++ dst =
    encRegister 0x4D (if wb then .byte else .word) (.reg code) dst := register_word 0x4D false wb code dst

theorem shiftRight1_lt {w : Width} {a : Word} (b : Bool) (ha : a.toNat < 2 ^ bits w) :
    (shiftRight1 w a b).toNat < 2 ^ bits w := by
  rw [shiftRight1_toNat w a b ha]
  cases w <;> cases b <;> simp only [bits, Bool.toNat_true, Bool.toNat_false] at * <;> omega

/-- The register a shift of its low bits is written back to, as a number. -/
theorem merge_shiftRight1 (s : State) (w : Width) (dst : RegIdx) (b : Bool) :
    (merge w (s.reg dst) (shiftRight1 w (s.aOperand w dst) b)).toNat =
      kept w (s.reg dst) (low w (s.reg dst) / 2 + b.toNat * 2 ^ (bits w - 1)) := by
  have ha := aOperand_lt s w dst
  rw [merge_toNat_kept _ (shiftRight1_lt b ha), shiftRight1_toNat w _ b ha, aOperand_toNat]

/-- The sign bit of the destination's low bits (R121). -/
theorem signBit_aOperand (s : State) (w : Width) (dst : RegIdx) : signBit w (s.aOperand w dst) = top w (low w (s.reg dst)) := by
  rw [signBit_eq w _ (aOperand_lt s w dst), aOperand_toNat, top]

/-- The bit RRC shifts out (R122). -/
theorem aOperand_bit0 (s : State) (w : Width) (dst : RegIdx) :
    (s.aOperand w dst).getLsbD 0 = decide (low w (s.reg dst) % 2 = 1) := by
  rw [BitVec.getLsbD, Nat.testBit_zero, aOperand_toNat]

/-- Z and N of a w-bit result written back, as the shifts' statements write them. -/
theorem logicWrite_flags_top {s : State} {w : Width} {r : Word} (dst : RegIdx) (hr : r.toNat < 2 ^ bits w) :
    s.flags.ofResult w r = { s.flags with
      z := decide (low w ((s.logicWrite w dst r).reg dst) = 0), n := top w (low w ((s.logicWrite w dst r).reg dst)) } := by
  rw [top_low]
  exact logicWrite_flags dst hr

/-- Settles O17: the words decode, and each shift's result is written back within the width. -/
theorem sraAndRrc : Obligations.SraAndRrc := by
  refine ⟨fun wb dst => ?_, fun wb dst => ?_, fun w dst s => ?sra, fun w dst s => ?rrc⟩
  · exact (congrArg decodeWord (shift_word wb 0 dst)).trans (decodeWord_sra ..)
  · exact (congrArg decodeWord (shift_word wb 1 dst)).trans (decodeWord_rrc ..)
  case sra =>
    have hr := shiftRight1_lt (signBit w (s.aOperand w dst)) (aOperand_lt s w dst)
    refine ⟨_, rfl, ?_, otherRegs_logicWrite dst s w _, logicWrite_flags_top dst hr, onlyRegsAndFlags_logicWrite dst s w _⟩
    rw [logicWrite_reg, merge_shiftRight1, signBit_aOperand]
  case rrc =>
    have hr := shiftRight1_lt s.flags.c (aOperand_lt s w dst)
    refine ⟨_, rfl, ?_, otherRegs_writeW s w dst _ _, ?_, onlyRegsAndFlags_writeW s w dst _ _⟩
    · exact (congrArg BitVec.toNat (logicWrite_reg dst s w _)).trans (merge_shiftRight1 s w dst s.flags.c)
    · rw [← aOperand_bit0]
      exact congrArg (fun f => { f with c := (s.aOperand w dst).getLsbD 0 }) (logicWrite_flags_top dst hr)

/-! ## SWPB, SXT and the immediate moves -/

theorem onlyRegsAndFlags_setReg (s : State) (dst : RegIdx) (v : Word) : OnlyRegsAndFlags s (s.setReg dst v) :=
  onlyRegsAndFlags s _ s.flags

theorem otherRegs_setReg (s : State) (dst : RegIdx) (v : Word) : OtherRegs s (s.setReg dst v) dst :=
  fun _ hi => (reg_setReg ..).trans (if_neg hi)

/-- A register write of a word made of two bytes, no flag written (R123, R125 to R128). -/
theorem writes_bytes (s : State) (dst : RegIdx) (lo hi : Byte) :
    ((s.setReg dst (wordOfBytes lo hi)).reg dst).toNat = hi.toNat * 256 + lo.toNat ∧
      OtherRegs s (s.setReg dst (wordOfBytes lo hi)) dst ∧ (s.setReg dst (wordOfBytes lo hi)).flags = s.flags ∧
      OnlyRegsAndFlags s (s.setReg dst (wordOfBytes lo hi)) :=
  ⟨(congrArg BitVec.toNat ((reg_setReg ..).trans (if_pos rfl))).trans (by rw [wordOfBytes_toNat]; omega), otherRegs_setReg s dst _, rfl,
    onlyRegsAndFlags_setReg s dst _⟩

theorem signed_byte (b : Byte) : signed .byte b.toNat = b.toInt := by
  have := b.isLt
  rw [signed, top, bits, BitVec.toInt_eq_toNat_cond]
  simp only [decide_eq_true_iff]
  split <;> split <;> omega

theorem low_word (v : Word) : low .word v = v.toNat := Nat.mod_eq_of_lt v.isLt

theorem lo8_toInt (v : Word) : ((lo8 v).signExtend 16).toInt = signed .byte (v.toNat % 256) := by
  rw [BitVec.toInt_signExtend_of_le (by decide), ← signed_byte, lo8_toNat]

/-- Settles O18: the words decode whatever bit 6 is; SWPB writes two bytes and SXT a sign-extended one. -/
theorem swpbAndSxt : Obligations.SwpbAndSxt := by
  refine ⟨fun b6 dst => ?_, fun b6 dst => ?_, fun dst s => ⟨_, rfl, ?swpb⟩, fun dst s => ⟨_, rfl, ?sxt⟩⟩
  · exact (congrArg decodeWord (shift_word b6 3 dst)).trans (decodeWord_swpb ..)
  · exact (congrArg decodeWord (shift_word b6 4 dst)).trans (decodeWord_sxt ..)
  case swpb =>
    have h := writes_bytes s dst (hi8 (s.reg dst)) (lo8 (s.reg dst))
    rwa [lo8_toNat, hi8_toNat] at h
  case sxt =>
    have hr : ((lo8 (s.reg dst)).signExtend 16).toNat < 2 ^ bits .word := BitVec.isLt _
    refine ⟨?_, otherRegs_logicWrite dst s .word _, ?_, onlyRegsAndFlags_logicWrite dst s .word _⟩
    · rw [logicWrite_reg, merge_word, lo8_toInt]
    · have h := logicWrite_flags (s := s) dst hr
      rwa [low_word] at h

/-- Settles O19: each writes a word made of two bytes. -/
theorem immediateMoves : Obligations.ImmediateMoves := by
  intro b dst s
  refine ⟨⟨_, rfl, ?movl⟩, ⟨_, rfl, ?movlz⟩, ⟨_, rfl, ?movls⟩, ⟨_, rfl, ?movh⟩⟩
  case movl =>
    have h := writes_bytes s dst b (hi8 (s.reg dst))
    rwa [hi8_toNat] at h
  case movlz =>
    have h := writes_bytes s dst b 0x00
    rwa [show (0x00 : Byte).toNat * 256 + b.toNat = b.toNat from Nat.zero_add _] at h
  case movls => exact writes_bytes s dst b 0xFF
  case movh =>
    have h := writes_bytes s dst (lo8 (s.reg dst)) b
    rwa [lo8_toNat] at h

/-! ## MOV and SWAP -/

section FlushIf
variable (s : State) (c : Prop) [Decidable c]

theorem flushIf_reg (i : RegIdx) : (flushIf s c).reg i = s.reg i := by
  unfold flushIf
  split <;> rfl

theorem flushIf_bq : (flushIf s c).bq = if c then [true] else s.bq := by
  unfold flushIf
  split <;> rfl

/-- A register write and the flush it may ask for change the registers and the queue, nothing else (R120). -/
theorem onlyRegsAndQueue_flushIf (x : Vector Word 8) : OnlyRegsAndQueue s (flushIf (s.setX x) c) := by
  unfold flushIf
  split <;> exact ⟨rfl, fun _ => ⟨rfl, rfl⟩⟩

end FlushIf

/-- Settles O16: a register write, and the flush when one of the registers written is R7. -/
theorem movAndSwap : Obligations.MovAndSwap := by
  refine ⟨fun w src dst s => ⟨_, exec_mov w src dst s, ?_, fun i hi => ?_, ?_, ?_⟩,
    fun src dst s => ⟨_, exec_swap src dst s, ?_, ?_, fun i hsrc hdst => ?_, ?_, onlyRegsAndQueue_flushIf s _ _⟩⟩
  · rw [flushIf_reg, writeW_reg, if_pos rfl, merge_toNat, kept, low]
  · rw [flushIf_reg, writeW_reg, if_neg hi]
  · rw [flushIf_bq, writeW_eq]
    rfl
  · rw [writeW_eq]
    exact onlyRegsAndQueue_flushIf s _ _
  · rw [flushIf_reg, reg_setReg, reg_setReg, if_pos rfl]
    split
    · next h => rw [h]
    · rfl
  · rw [flushIf_reg, reg_setReg, if_pos rfl]
  · rw [flushIf_reg, reg_setReg, reg_setReg, if_neg hdst, if_neg hsrc]
  · exact flushIf_bq ..

/-! ## Status and failures -/

/-- Settles O20: each flag is OR-ed or AND-ed with its own bit of the mask. -/
theorem setccAndClrcc : Obligations.SetccAndClrcc := by
  have sets (f b : Bool) : (f || b) = if b then true else f := by cases b <;> simp
  have clears (f b : Bool) : (f && !b) = if b then false else f := by cases b <;> simp
  exact fun m s => ⟨⟨_, rfl, fun _ => rfl, onlyRegsAndFlags s s.x _, sets .., sets .., sets .., sets .., sets ..⟩,
    ⟨_, rfl, fun _ => rfl, onlyRegsAndFlags s s.x _, clears .., clears .., clears .., clears .., clears ..⟩⟩

/-- Settles O21: the table evaluated at the values of the flags it reads. -/
theorem conditionTable : Obligations.ConditionTable := by
  rintro ⟨c, z, n, v, slp⟩
  cases c <;> cases z <;> cases n <;> cases v <;>
    exact ⟨rfl, rfl, rfl, rfl, rfl, rfl, rfl, rfl, rfl, rfl, rfl, rfl, rfl, rfl, rfl, rfl⟩

/-- Settles O24: the words decode, and each meaning is one failure. -/
theorem failingInstructions : Obligations.FailingInstructions :=
  ⟨fun p _ => ⟨decodeWord_setpri p, rfl⟩, fun a _ => ⟨decodeWord_svc a, rfl⟩, fun _ => rfl⟩

end Sys2Proof.Proofs

/-! PROOFS. CEX, the compute phase of loads and stores, and what every compute phase leaves unchanged
(spec/44_status_cex.md section 2; spec/45_load_store.md; spec/10_state.md R26; spec/60_exceptions.md section 1). -/

namespace Sys2Proof.Proofs

open Sys2Proof Sys2Proof.Machine Sys2Proof.Claims

/-! ## CEX -/

/-- The decisions of a CEX, as the statements write them (R132). -/
theorem cexEntries_eq (holds : Bool) (tc fc : BitVec 3) : cexEntries holds tc fc =
    if holds then List.replicate tc.toNat false ++ List.replicate fc.toNat true
    else List.replicate tc.toNat true ++ List.replicate fc.toNat false := by
  cases holds <;> rfl

theorem cexEntries_length (holds : Bool) (tc fc : BitVec 3) : (cexEntries holds tc fc).length = tc.toNat + fc.toNat := by
  rw [cexEntries, List.length_append, List.length_replicate, List.length_replicate]

section Cex
variable {p : Config.Params} {c : Cond} {tc fc : BitVec 3} {s : State}

theorem cexQueued (room : s.bq.length + tc.toNat + fc.toNat ≤ p.bqCapacity) :
    ∃ t, execWith p (.cex c tc fc) s = .next t ∧ CexQueued c tc fc s t := by
  refine ⟨_, rfl, ?_⟩
  rw [bqInsertAll_room p _ s (by rw [cexEntries_length]; omega), cexEntries_eq]
  exact ⟨⟨rfl, fun _ => ⟨rfl, rfl⟩⟩, fun _ => rfl, rfl⟩

theorem cexOverflows (within : s.bq.length ≤ p.bqCapacity) (full : p.bqCapacity < s.bq.length + tc.toNat + fc.toNat) :
    ∃ t, execWith p (.cex c tc fc) s = .next t ∧ CexOverflows p.bqCapacity c tc fc s t := by
  have len := cexEntries_length (s.flags.holds c) tc fc
  refine ⟨_, rfl, (cexEntries (s.flags.holds c) tc fc).take (p.bqCapacity - s.bq.length), ?_, ?_, ?_⟩
  · exact bqInsertAll_full p _ s within (by omega)
  · rw [List.length_append, List.length_take]
    omega
  · rw [← cexEntries_eq]
    exact List.take_prefix ..

end Cex

/-- Settles O22: with room every entry is appended; the spec's capacity is 32. -/
theorem cexQueuesDecisions : Obligations.CexQueuesDecisions :=
  ⟨fun _ _ _ _ => cexQueued (p := Config.params), fun _ _ _ _ _ => cexQueued⟩

/-- Settles O23: without room the entries that fit are appended and the fault raised; the spec's capacity is 32. -/
theorem cexOverflowFaults : Obligations.CexOverflowFaults :=
  ⟨fun _ _ _ _ => cexOverflows (p := Config.params), fun _ _ _ _ _ => cexOverflows⟩

/-! ## The compute phase of loads and stores -/

/-- LD and ST on their base register (R138). -/
theorem indirectRequest {dec inc : Bool} (h : (inc && dec) = false) (prpo : Bool) (w : Width) (b : RegIdx) (c : MemCtrl) (s : State) :
    IndirectRequest prpo dec inc w b c s (s.indirectAccess prpo dec inc w b c) := by
  rw [indirectAccess_request h, indirectAddress_eq]
  refine ⟨?_, fun i hi => (reg_setReg ..).trans (if_neg hi), rfl, rfl, rfl, rfl, fun _ => ⟨rfl, rfl⟩⟩
  exact ((reg_setReg ..).trans (if_pos rfl)).trans (add_baseDelta w dec inc (s.reg b))

/-- Settles O25: LD reads and ST writes through `indirectRequest`. -/
theorem ldAndStCompute : Obligations.LdAndStCompute := by
  intro prpo dec inc w src dst s h
  rw [← readCtrl_eq, ← writeCtrl_eq]
  exact ⟨⟨_, rfl, indirectRequest h ..⟩, ⟨_, rfl, indirectRequest h ..⟩⟩

/-- Settles O26: LDR and STR request their access and change no register. -/
theorem ldrAndStrCompute : Obligations.LdrAndStrCompute := by
  intro o w src dst s
  have frame (x : Word) (c : MemCtrl) : OnlyRegsAndRequest s (s.requestAccess c x) := ⟨rfl, fun _ => ⟨rfl, rfl⟩⟩
  rw [← readCtrl_eq, ← writeCtrl_eq]
  exact ⟨⟨_, rfl, fun _ => rfl, rfl, rfl, rfl, frame ..⟩, ⟨_, rfl, fun _ => rfl, rfl, rfl, rfl, frame ..⟩⟩

/-- Settles O27: the compute phase raises the fault on the ticked state, and a faulted WAIT_0 cycle ends there. -/
theorem incAndDecFaults : Obligations.IncAndDecFaults := by
  intro prpo w src dst s hl hc h
  have faults : exec s.cur.instr s.tick = .next (s.tick.raise (.ldStIncAndDec s.cur.opcode)) := by
    rcases h with h | h <;> (rw [h]; rfl)
  have hs := step_wait0 hl hc faults
  rw [finishWait0_faulted _ _ _ rfl] at hs
  exact ⟨_, hs, rfl, fun _ => rfl, rfl, rfl, fun _ => ⟨rfl, rfl⟩, rfl, step_faulted _ _ rfl⟩

/-! ## The flags an instruction may write -/

/-- The flags g are f but where the row m allows a write. -/
def FlagsOutside (m f g : Flags) : Prop :=
  (m.c = false → g.c = f.c) ∧ (m.z = false → g.z = f.z) ∧ (m.n = false → g.n = f.n) ∧ (m.v = false → g.v = f.v) ∧
    (m.slp = false → g.slp = f.slp)

namespace FlagsOutside
variable (f : Flags)

theorem same (m : Flags) : FlagsOutside m f f := ⟨fun _ => rfl, fun _ => rfl, fun _ => rfl, fun _ => rfl, fun _ => rfl⟩

theorem alu (o : AluOut) : FlagsOutside { c := true, z := true, n := true, v := true, slp := false } f (f.ofAlu o) :=
  ⟨nofun, nofun, nofun, nofun, fun _ => rfl⟩

theorem result (w : Width) (r : Word) :
    FlagsOutside { c := false, z := true, n := true, v := false, slp := false } f (f.ofResult w r) :=
  ⟨fun _ => rfl, nofun, nofun, fun _ => rfl, fun _ => rfl⟩

end FlagsOutside

theorem writeW_flags (s : State) (w : Width) (dst : RegIdx) (v : Word) : (s.writeW w dst v).flags = s.flags := by
  rw [writeW_eq]
  rfl

theorem flushIf_flags (s : State) (c : Prop) [Decidable c] : (flushIf s c).flags = s.flags := by
  unfold flushIf
  split <;> rfl

theorem branchIf_flags (s : State) (c : Bool) (o : Word) : (s.branchIf c o).flags = s.flags := by
  unfold State.branchIf
  split
  · rw [take_eq]
    rfl
  · rfl

theorem indirectAccess_flags (s : State) (prpo dec inc : Bool) (w : Width) (b : RegIdx) (c : MemCtrl) :
    (s.indirectAccess prpo dec inc w b c).flags = s.flags := by
  unfold State.indirectAccess
  split <;> rfl

/-- A bit-index instruction writes no flag when it fails, and otherwise those it writes with its mask (R114). -/
theorem flagsOutside_masked {i : Instr} {s t : State} {w : Width} {src : Operand} {f : Word → State} {row : Flags}
    (fails : s.bitMask w src = none → exec i s = .next (s.fail .bitIndexOutOfRange))
    (masked : ∀ m, s.bitMask w src = some m → exec i s = .next (f m)) (hf : ∀ m, FlagsOutside row s.flags (f m).flags)
    (h : exec i s = .next t) : FlagsOutside row s.flags t.flags := by
  rcases hm : s.bitMask w src with _ | m
  · cases (fails hm).symm.trans h
    exact .same s.flags row
  · cases (masked m hm).symm.trans h
    exact hf m

/-- The compute phase of every instruction writes within its row of R26. -/
theorem exec_flagsOutside {i : Instr} {s t : State} (h : exec i s = .next t) : FlagsOutside (mayWrite i) s.flags t.flags := by
  have kept {m : Flags} {u : State} (hu : u.flags = s.flags) : FlagsOutside m s.flags u.flags := hu ▸ .same s.flags m
  have masked {m b : Bool} (hm : m = false) : (b || m) = b ∧ (b && !m) = b := by rw [hm]; exact ⟨b.or_false, b.and_true⟩
  cases i
  case bit w _ dst => exact flagsOutside_masked (exec_bit_fails dst) (fun _ => exec_bit_masked dst) (fun _ => .result s.flags w _) h
  case bic w _ dst => exact flagsOutside_masked (exec_bic_fails dst) (fun _ => exec_bic_masked dst) (fun _ => .result s.flags w _) h
  case bis w _ dst => exact flagsOutside_masked (exec_bis_fails dst) (fun _ => exec_bis_masked dst) (fun _ => .result s.flags w _) h
  case bl o =>
    by_cases ho : o = 0
    · subst ho
      cases h
      exact .same s.flags _
    · cases (exec_bl_taken ho s).symm.trans h
      exact .same s.flags _
  case mov w src dst =>
    cases (exec_mov w src dst s).symm.trans h
    exact kept ((flushIf_flags ..).trans (writeW_flags ..))
  case swap src dst =>
    cases (exec_swap src dst s).symm.trans h
    exact kept (flushIf_flags ..)
  all_goals cases h
  case add | addc | sub | subc | dadd | cmp => exact .alu s.flags _
  case xor w _ _ | and w _ _ | or w _ _ | sra w _ => exact .result s.flags w _
  case sxt => exact .result s.flags .word _
  case rrc => exact ⟨nofun, nofun, nofun, fun _ => rfl, fun _ => rfl⟩
  case setcc =>
    exact ⟨fun h => (masked h).1, fun h => (masked h).1, fun h => (masked h).1, fun h => (masked h).1, fun h => (masked h).1⟩
  case clrcc =>
    exact ⟨fun h => (masked h).2, fun h => (masked h).2, fun h => (masked h).2, fun h => (masked h).2, fun h => (masked h).2⟩
  case beq | bne | bc | bnc | bn | bge | blt | bra => exact kept (branchIf_flags ..)
  case ld | st => exact kept (indirectAccess_flags ..)
  case cex =>
    refine kept ?_
    rw [bqInsertAll_frame]
  case ldr | str | swpb | movl | movlz | movls | movh | setpri | svc | undefined => exact .same s.flags _

/-- Settles O48: every instruction writes within its row, and DADD answers N and V clear. -/
theorem flagWriters : Obligations.FlagWriters := by
  intro i s t h
  obtain ⟨c, z, n, v, slp⟩ := exec_flagsOutside h
  refine ⟨c, z, n, v, slp, ?_⟩
  rintro w src dst rfl
  cases h
  exact ⟨rfl, rfl⟩

/-! ## What no compute phase changes -/

theorem effect_keeps_transfers {p : Config.Params} {s t : State} {i : Instr} (h : Effect p s i t) :
    t.imbr = s.imbr ∧ t.dmbr = s.dmbr ∧ t.cur = { s.cur with pending := t.cur.pending } := by
  cases h with
  | queue l =>
    rw [bqInsertAll_frame]
    exact ⟨rfl, rfl, rfl⟩
  | _ => exact ⟨rfl, rfl, rfl⟩

/-- Settles O49: every meaning answers a next state, one of the shapes of `Effect`. -/
theorem computePhaseFrame : Obligations.ComputePhaseFrame := by
  intro i s
  obtain ⟨t, h⟩ := exec_next i s
  have hk := (exec_effect h).kept
  obtain ⟨imbr, dmbr, cur⟩ := effect_keeps_transfers (exec_effect h)
  exact ⟨t, h, hk.im, hk.dm, hk.imar, imbr, hk.ictrl, hk.ir, hk.irTag, dmbr, hk.cycleState, hk.running, hk.flushPending, hk.prev, cur,
    hk.breakpoint, hk.startingAddress, hk.clockCycles⟩

end Sys2Proof.Proofs

/-! PROOFS. Branches, the words they drop, and the first slots after boot (spec/46_branch.md;
spec/70_reset_and_hazards.md sections 2, 5 and 6). -/

namespace Sys2Proof.Proofs

open Sys2Proof Sys2Proof.Machine Sys2Proof.Claims

/-! ## Branches and BL -/

/-- A branch whose words round-trip has the form its high bits name (R70, R79). -/
theorem branchForm {hi : BitVec 6} {c : BitVec 3} {mk : Word → Instr} (high : 0b001#3 ++ c = hi)
    (back : ∀ o, BranchOffset.wf o → decodeWord (encBranch c o) = mk o) : BranchForm hi mk := by
  intro f
  have offset : branchOffset (hi ++ f) = (f ++ 0#1).signExtend 16 := by
    rw [branchOffset, BitVec.extractLsb'_append_eq_right]
  have word : encBranch c ((f ++ 0#1).signExtend 16) = hi ++ f := by
    rw [encBranch, extractLsb'_signExtend_field (by decide), ← high]
  rw [← word]
  exact back _ (offset ▸ branchOffset_wf (hi ++ f))

theorem onlyRegsAndQueue (s : State) (x : Vector Word 8) (q : List Bool) : OnlyRegsAndQueue s ((s.setX x).setBq q) :=
  ⟨rfl, fun _ => ⟨rfl, rfl⟩⟩

/-- The shared action of the branches, as the statements write it (R147, R148). -/
theorem branchIf_takes (c : Bool) (o : Word) (s : State) :
    if c then TakenTo ((s.reg 7 - 2) + o) s (s.branchIf c o) else s.branchIf c o = s := by
  cases c
  · exact rfl
  · rw [if_pos rfl, State.branchIf, if_pos rfl, take_eq]
    exact ⟨(reg_setReg ..).trans (if_pos rfl), fun i hi => (reg_setReg ..).trans (if_neg hi), rfl, onlyRegsAndQueue s _ _⟩

/-- Settles O35: the words round-trip, and each branch is `branchIf` on its condition. -/
theorem conditionalBranches : Obligations.ConditionalBranches := by
  refine ⟨⟨branchForm rfl fun o h => decodeEncodeRoundTrip (.beq o) (decide_eq_true h),
    branchForm rfl fun o h => decodeEncodeRoundTrip (.bne o) (decide_eq_true h),
    branchForm rfl fun o h => decodeEncodeRoundTrip (.bc o) (decide_eq_true h),
    branchForm rfl fun o h => decodeEncodeRoundTrip (.bnc o) (decide_eq_true h),
    branchForm rfl fun o h => decodeEncodeRoundTrip (.bn o) (decide_eq_true h),
    branchForm rfl fun o h => decodeEncodeRoundTrip (.bge o) (decide_eq_true h),
    branchForm rfl fun o h => decodeEncodeRoundTrip (.blt o) (decide_eq_true h),
    branchForm rfl fun o h => decodeEncodeRoundTrip (.bra o) (decide_eq_true h)⟩, fun o s => ?_⟩
  have differ : (s.flags.n != s.flags.v) = decide (s.flags.n ≠ s.flags.v) := decide_not.symm
  refine ⟨⟨_, rfl, branchIf_takes ..⟩, ⟨_, rfl, branchIf_takes ..⟩, ⟨_, rfl, branchIf_takes ..⟩,
    ⟨_, rfl, branchIf_takes ..⟩, ⟨_, rfl, branchIf_takes ..⟩, ⟨_, rfl, branchIf_takes ..⟩, ⟨_, rfl, ?_⟩, ⟨_, rfl, branchIf_takes true o s⟩⟩
  rw [← differ]
  exact branchIf_takes ..

/-- Settles O36: offset 0 answers the state as it is, every other writes R5 and is taken. -/
theorem branchAndLink : Obligations.BranchAndLink := by
  intro o s
  refine ⟨fun h => h ▸ exec_bl_zero s, fun h => ⟨_, exec_bl_taken h s, ?_, ?_, fun i h5 h7 => ?_, rfl, onlyRegsAndQueue s _ _⟩⟩
  · exact (reg_setReg ..).trans ((if_neg (by decide)).trans ((reg_setReg ..).trans (if_pos rfl)))
  · exact (reg_setReg ..).trans (if_pos rfl)
  · exact (reg_setReg ..).trans ((if_neg h7).trans ((reg_setReg ..).trans (if_neg h5)))

/-- The compute phase of a branch or BL that is taken (R148, R158). -/
theorem exec_taken {i : Instr} {s : State} {o : Word} (h : takenOffset s.flags i = some o) :
    ∃ t, exec i s = .next t ∧ t.reg 7 = (s.reg 7 - 2) + o ∧ t.bq = [true] ∧ OnlyRegsAndQueue s t := by
  have branch {i : Instr} {c : Bool} {o : Word} (he : exec i s = .next (s.branchIf c o)) (hc : c = true) :
      ∃ t, exec i s = .next t ∧ t.reg 7 = (s.reg 7 - 2) + o ∧ t.bq = [true] ∧ OnlyRegsAndQueue s t := by
    subst hc
    obtain ⟨pc, -, bq, frame⟩ := branchIf_takes true o s
    exact ⟨_, he, pc, bq, frame⟩
  cases i
  case beq | bc | bn =>
    obtain ⟨hc, rfl⟩ := Option.ite_some_none_eq_some.1 h
    exact branch rfl hc
  case bne | bnc =>
    obtain ⟨hc, ho⟩ := Option.ite_none_left_eq_some.1 h
    cases ho
    exact branch rfl (Bool.not_eq_true' _ ▸ Bool.eq_false_iff.2 hc)
  case bge =>
    obtain ⟨hc, rfl⟩ := Option.ite_some_none_eq_some.1 h
    exact branch rfl (beq_iff_eq.2 hc)
  case blt =>
    obtain ⟨hc, ho⟩ := Option.ite_none_left_eq_some.1 h
    cases ho
    exact branch rfl (bne_iff_ne.2 hc)
  case bra =>
    cases h
    exact branch (c := true) rfl rfl
  case bl =>
    obtain ⟨hc, ho⟩ := Option.ite_none_left_eq_some.1 h
    cases ho
    obtain ⟨t, he, -, pc, -, bq, frame⟩ := (branchAndLink o s).2 hc
    exact ⟨t, he, pc, bq, frame⟩
  all_goals exact nomatch h

/-! ## What a START or WAIT_1 cycle decodes -/

theorem staged_cur_start (p : Config.Params) {s : State} (h : s.cycleState = .start) : (staged p s).cur = Decoded.nopWith p := by
  simp only [staged, State.decodeStage_cur, h]
  rfl

theorem staged_flushPending (p : Config.Params) (s : State) :
    (staged p s).flushPending = (s.flushPending || (staged p s).cur.instr.requestsFlush) := rfl

theorem staged_cur_wait1 (p : Config.Params) {s : State} (h : s.cycleState = .wait1) :
    (staged p s).cur = { opcode := s.ir, instr := decodeWord s.ir, pending := false, addr := s.irTag } := by
  simp only [staged, State.decodeStage_cur, h]
  rfl

/-- Settles O37: the queue's one entry suppresses the word in flight, and the next cycle fetches at R7. -/
theorem takenBranchDropsNextWord : Obligations.TakenBranchDropsNextWord := by
  intro s o h hp taken
  obtain ⟨v, he, hpc, hq, hv, -⟩ := exec_taken (s := s.tick) taken
  have live : v.faulted = none := (congrArg State.faulted hv :).trans h.1.2
  have hcur : v.cur = s.cur := (congrArg State.cur hv :)
  have running : v.running = true := (congrArg State.running hv :).trans h.1.1
  obtain ⟨ready, between⟩ := fetched_live (p := Config.params) running live
  have drop : (v.flushPending || v.bq.head? == some true) = true := by rw [hq]; exact Bool.or_true _
  have hir : (fetched Config.params v).ir = 0x0000#16 := if_pos drop
  have htag : (fetched Config.params v).irTag = none := if_pos drop
  have idle : (fetched Config.params v).prev.pending = false := (congrArg Decoded.pending hcur).trans hp
  refine ⟨_, _, step_fetched h he live, hir, htag, congrArg List.tail hq, rfl, hpc, rfl,
    stepWith_decodes ready between idle, hpc, ?_, rfl⟩
  refine (staged_cur_wait1 Config.params rfl).trans ?_
  rw [hir, htag]
  rfl

/-- The compute phase of a word decoded as a branch (R147). -/
theorem exec_decodeBranch (w : Word) (s : State) : ∃ c, exec (decodeBranch w) s = .next (s.branchIf c (branchOffset w)) := by
  unfold decodeBranch
  split <;> exact ⟨_, rfl⟩

/-- An even offset from R7 - 2 keeps the parity of R7 (R51, R147). -/
theorem branchTarget_parity (s : State) {o : Word} (even : o.getLsbD 0 = false) :
    (s.branchTarget o).getLsbD 0 = (s.reg 7).getLsbD 0 := by
  rw [State.branchTarget, BitVec.sub_eq_add_neg, add_getLsbD_zero, add_getLsbD_zero, even, Bool.xor_false]
  exact Bool.xor_false _

/-- Settles O38: both offsets are even. -/
theorem branchTargetsKeepParity : Obligations.BranchTargetsKeepParity := by
  intro w s t hw h
  rcases hw with link | branch
  · rw [decodeWord_link link] at h
    by_cases ho : linkOffset w = 0
    · rw [ho] at h
      cases h
      rfl
    · cases (exec_bl_taken ho s).symm.trans h
      exact (congrArg (BitVec.getLsbD · 0) ((reg_setReg ..).trans (if_pos rfl))).trans
        (branchTarget_parity s (linkOffset_wf w).1)
  · rw [decodeWord_branch branch] at h
    obtain ⟨c, hc⟩ := exec_decodeBranch w s
    cases hc.symm.trans h
    have takes := branchIf_takes c (branchOffset w) s
    cases c
    · rfl
    · obtain ⟨target, -⟩ := takes
      exact (congrArg (BitVec.getLsbD · 0) target).trans (branchTarget_parity s (branchOffset_wf w).1)

/-! ## Stores with destination field 7 -/

theorem requestsFlush_iff (i : Instr) : i.requestsFlush = true ↔
    (∃ prpo dec inc w src, i = .st prpo dec inc w src 7) ∨ ∃ o w src, i = .str o w src 7 := by
  constructor
  · intro h
    cases i
    case st prpo dec inc w src dst => exact .inl ⟨prpo, dec, inc, w, src, congrArg _ (eq_of_beq h)⟩
    case str o w src dst => exact .inr ⟨o, w, src, congrArg _ (eq_of_beq h)⟩
    all_goals exact nomatch h
  · rintro (⟨_, _, _, _, _, rfl⟩ | ⟨_, _, _, rfl⟩) <;> rfl

/-- A store to R7 is a store that requests the flush (R92). -/
theorem storesAt_of_storesToPc {i : Instr} (h : StoresToPc i) (s : State) :
    i.requestsFlush = true ∧ ∃ w src ea, StoresAt i s w src ea := by
  rcases h with ⟨prpo, dec, inc, w, src, rfl, both⟩ | ⟨o, w, src, rfl⟩
  · exact ⟨rfl, w, src, _, .inl ⟨prpo, dec, inc, 7, rfl, both, rfl⟩⟩
  · exact ⟨rfl, w, src, _, .inr ⟨o, 7, rfl, rfl⟩⟩

/-- Settles O39: decode raises the indicator, the next cycle's fetch obeys it; and decode's request is exactly `requestsFlush`. -/
theorem storeToPcDropsNextWord : Obligations.StoreToPcDropsNextWord := by
  refine ⟨fun s hs hp hb even hstore => ?drops, fun s hs => ?exactly⟩
  case drops =>
    obtain ⟨hl, hc⟩ := hs
    have hcur : (staged Config.params s).cur.instr = decodeWord s.ir := by rw [staged_cur_wait1 Config.params hc]
    have between : s.cycleState ≠ .wait0 := by rw [hc]; exact CycleState.noConfusion
    obtain ⟨flush, w, src, ea, hst⟩ := storesAt_of_storesToPc hstore ((staged Config.params s).enter .wait0)
    rw [← hcur] at hst flush
    obtain ⟨x, he, -⟩ := exec_store hst
    have raised : (staged Config.params s).flushPending = true :=
      (staged_flushPending Config.params s).trans (by rw [flush, Bool.or_true])
    have hu := step_fetched (s := (staged Config.params s).enter .wait0) ⟨hl, rfl, hb, even⟩ he hl.2
    have drop (b : Bool) : ((staged Config.params s).flushPending || b) = true := by rw [raised, Bool.true_or]
    refine ⟨_, _, stepWith_decodes hl between hp, raised, hu, if_pos (drop _), if_pos (drop _), rfl, rfl, rfl⟩
  case exactly =>
    obtain ⟨c, ht⟩ := stepWith_staged (p := Config.params) hs.1 hs.2
    have hcur := commit_cur Config.params (staged Config.params s)
    have hflush := commit_flushPending Config.params (staged Config.params s)
    refine ⟨_, ht, ?_, congrArg Decoded.instr hcur⟩
    rw [State.enter_flushPending, State.enter_cur, hflush, hcur, ← requestsFlush_iff]
    exact Bool.or_eq_true _ _ ▸ Iff.rfl

/-! ## Boot -/

theorem breakpointHit_untagged (s : State) (h : s.prev.addr = none) : s.breakpointHit = false := by
  rw [State.breakpointHit, h]
  cases s.breakpoint <;> rfl

/-- The START no-op slot of a machine with nothing pending: the word at R7 is in IR (R179, R202). -/
theorem start_slot {s : State} (hl : s.Live) (hc : s.cycleState = .start) (hp : s.prev.pending = false) (hq : s.bq = [])
    (hf : s.flushPending = false) (even : (s.reg 7).getLsbD 0 = false) :
    ∃ t u, step s = .next t ∧ step t = .next u ∧ u.Live ∧ u.cycleState = .wait1 ∧ u.prev.pending = false ∧ u.bq = [] ∧
      u.ir = Memory.readWord s.im (s.reg 7) ∧ u.irTag = some (s.reg 7) ∧ u.reg 7 = s.reg 7 + 2 ∧
      u.clockCycles = s.clockCycles + 2 ∧ u.failures = s.failures := by
  have hcur := staged_cur_start Config.params hc
  have between : s.cycleState ≠ .wait0 := by rw [hc]; exact CycleState.noConfusion
  have he : execWith Config.params (staged Config.params s).cur.instr ((staged Config.params s).enter .wait0).tick =
      .next ((staged Config.params s).enter .wait0).tick := by
    rw [hcur]
    rfl
  have hu := stepWith_fetched (s := (staged Config.params s).enter .wait0) hl rfl even he hl.2
  have quiet : (staged Config.params s).flushPending = false := by
    rw [staged_flushPending, hf, hcur]
    rfl
  have keeps : ¬ ((staged Config.params s).flushPending || s.bq.head? == some true) = true := by
    rw [quiet, hq]
    exact Bool.false_ne_true
  rw [haltCheck_runs _ (breakpointHit_untagged _ (congrArg Decoded.addr hcur))] at hu
  refine ⟨_, _, stepWith_decodes hl between hp, hu, hl, rfl, congrArg Decoded.pending hcur, congrArg List.tail hq, if_neg keeps,
    if_neg keeps, (staged_reg 7).trans (if_pos rfl), rfl, rfl⟩

/-- Settles O60: the START no-op slot fetches the entry word, and the WAIT_1 cycle after it decodes that word. -/
theorem bootFetchesEntryPoint : Obligations.BootFetchesEntryPoint := by
  intro imBytes dmBytes start bp even s m
  have entry : s.reg 7 = start := (reg_setReg ..).trans (if_pos rfl)
  obtain ⟨t, u, ht, hu, live, hc, idle, hq, hir, htag, hpc, clock, fails⟩ :=
    start_slot (s := s) ⟨rfl, rfl⟩ rfl rfl rfl rfl (entry ▸ even)
  rw [entry] at hir htag hpc
  have between : u.cycleState ≠ .wait0 := by rw [hc]; exact CycleState.noConfusion
  refine ⟨t, u, _, ht, hu, stepWith_decodes live between idle, hir, htag, clock, live.1, ?_, ?_, ?_, rfl, fails, hq⟩
  · exact (staged_cur_wait1 Config.params hc).trans (by rw [hir, htag]; rfl)
  · exact (staged_reg 7).trans ((if_pos rfl).trans (by rw [hpc]; exact BitVec.add_assoc start 2 2))
  · exact hpc

end Sys2Proof.Proofs
